-- ==== Sys2Proof/Word.lean ====
section
/-! DEFINITION. The words the block is made of: bytes, logic levels, the operand of a rendering
(spec/00_scope.md R9). -/

namespace Sys2Proof

/-- A byte: bit 7 is the most significant, bit 0 the least (R9). -/
abbrev Byte := BitVec 8

/-- The operand of FMT.H and FMT.T: sixteen bits, read as unsigned or as two's complement (spec/44_formatting.md R151,
R152). -/
abbrev Value := BitVec 16

/-- A logic level of the line: `false` is 0, low; `true` is 1, high (R9: the source's `is_high() -> bool`
answers `true` for level 1). -/
abbrev Level := Bool

/-- The level 0. -/
abbrev low : Level := false

/-- The level 1. -/
abbrev high : Level := true

end Sys2Proof
end

