-- ==== Sys2Proof/Config.lean ====
section
/-! DEFINITION. The parameters of the block (spec/00_scope.md R7, R8), as a record whose default is the
table of R7, the constraint a configuration must meet, and the one free value of the model: the level of
the line at a tick for which nothing fixes it (spec/20_memory.md R68, decision D22). -/

namespace Sys2Proof

/-- The named parameters of R7, the register widths among them.  The derived ones, `WAKE_TICKS` and `RELEASE_TICKS`, are
the functions below. -/
structure Config where
  /-- `WAKE_MS`: length of the wake pulse, in milliseconds. -/
  wakeMs : Nat
  /-- `RELEASE_US`: the wait after the release, in microseconds. -/
  releaseUs : Nat
  /-- `TIMEOUT_TICKS`: the number of samples at one level that raises Timeout. -/
  timeoutTicks : Nat
  /-- `FRAME_BITS`: the number of bits of a frame. -/
  frameBits : Nat
  /-- `FRAME_BYTES`: the number of bytes of a frame. -/
  frameBytes : Nat
  /-- `T_TICK`: the nominal length of a tick in microseconds; no rule reads it (decision D2). -/
  tTickUs : Nat
  /-- `TICKS_PER_MS` (decision D3). -/
  ticksPerMs : Nat
  /-- `W_CNT`: width of `CNT` and `LO`, in bits (decision D14). -/
  wCnt : Nat
  /-- `W_DLY`: width of `DLY`, in bits (decision D14). -/
  wDly : Nat
  /-- `W_IDX`: width of `IDX`, in bits (decision D14). -/
  wIdx : Nat
  /-- `W_VAL`: width of `TEMP` and `HUM`, in bits (decision D13). -/
  wVal : Nat
  deriving DecidableEq, Repr

namespace Config

/-- The normative defaults: the table of R7. -/
def standard : Config where
  wakeMs := 20
  releaseUs := 40
  timeoutTicks := 1000
  frameBits := 40
  frameBytes := 5
  tTickUs := 1
  ticksPerMs := 1000
  wCnt := 10
  wDly := 15
  wIdx := 6
  wVal := 16

/-- `WAKE_TICKS = WAKE_MS × TICKS_PER_MS` (R7). -/
def wakeTicks (c : Config) : Nat := c.wakeMs * c.ticksPerMs

/-- `RELEASE_TICKS = RELEASE_US` at one tick per microsecond (R7). -/
def releaseTicks (c : Config) : Nat := c.releaseUs

/-- The configurations the rules hold for (R8): `TIMEOUT_TICKS ≥ 2`, `WAKE_TICKS ≥ 1`, `RELEASE_TICKS ≥ 1`,
`FRAME_BITS = 8 × FRAME_BYTES`, `FRAME_BYTES = 5`, and widths large enough for the ranges of R7: `TIMEOUT_TICKS` fits `CNT`
(spec/93 U1), the last count of a delay fits `DLY`, the last bit position fits `IDX`, and the largest Humidity fits `HUM`
(log entry 2). -/
def ok (c : Config) : Bool :=
  decide (2 ≤ c.timeoutTicks) && decide (c.timeoutTicks < 2 ^ c.wCnt) &&
  decide (1 ≤ c.wakeTicks) && decide (c.wakeTicks ≤ 2 ^ c.wDly) &&
  decide (1 ≤ c.releaseTicks) && decide (c.releaseTicks ≤ 2 ^ c.wDly) &&
  decide (c.frameBits = 8 * c.frameBytes) && decide (c.frameBytes = 5) &&
  decide (c.frameBits ≤ 2 ^ c.wIdx) && decide (2805 < 2 ^ c.wVal)

/-- The number of ticks from the acceptance of MEASURE at `T0` to sample 0: `TS = T0 + firstSample`
(spec/41_handshake.md R113). -/
def firstSample (c : Config) : Nat := 1 + c.wakeTicks + c.releaseTicks

/-- The most ticks a run lasts, `Te ≤ T0 + longestRun` (spec/70_reset_and_hazards.md R211):
82 measurements of at most `TIMEOUT_TICKS − 1` samples each, then the sample that ends the last one and
the tick of VALIDATE. -/
def longestRun (c : Config) : Nat := c.firstSample + 82 * (c.timeoutTicks - 1) + 2

end Config

/-- FREE VALUE.  The level of the line at the tick numbered `k` when the input does not fix it: "a free
draw at every tick" (R68, decision D22, spec/93 U2).  It has no body, so nothing can evaluate it
(log entry 4). -/
opaque Config.freeLine : Nat → Level

end Sys2Proof
end

