-- ==== Sys2Proof/Machine/Render.lean ====
section
/-! DEFINITION. The rendering of values as text (spec/44_formatting.md R150 to R153, decision D23): pure
functions to a list of characters (spec/93 U12). -/

namespace Sys2Proof.Machine

/-- The character of one decimal digit. -/
def digitChar (d : Nat) : Char := Char.ofNat (48 + d)

/-- The digits of `n` in front of `acc`, by repeated `div 10` and `mod 10`; `fuel` bounds their number. -/
def decInto : (fuel : Nat) → (n : Nat) → (acc : List Char) → List Char
  | 0, _, acc => acc
  | k + 1, n, acc =>
    if n < 10 then digitChar n :: acc else decInto k (n / 10) (digitChar (n % 10) :: acc)

/-- `dec(n)`: the decimal numeral of `n`, without leading zeros, sign or padding; `dec(0) = "0"` (R151). -/
def dec (n : Nat) : List Char := decInto (n + 1) n []

/-- `<integer part>.<fractional digit>` of a number of tenths (R81, R153: the division is of a non-negative
number). -/
def tenths (m : Nat) : List Char := dec (m / 10) ++ ['.'] ++ dec (m % 10)

/-- FMT.H (R151): `v` unsigned. -/
def renderHum (v : Value) : List Char := tenths v.toNat ++ ['%']

/-- FMT.T (R152): `v` signed; the sign first, the digits of the magnitude after it. -/
def renderTemp (v : Value) : List Char :=
  (if v.toInt < 0 then ['-'] else []) ++ tenths v.toInt.natAbs ++ ['°', 'C']

end Sys2Proof.Machine
end

