-- ==== Sys2Proof/Machine/Waveform.lean ====
section
/-! DEFINITION. Waveforms as lists of samples: the trace notation and its pseudo-operations
(spec/30_encoding.md R87, R88, decision D21) and the handshake waveform HS (R72).  A waveform without end
(`L*`, `H*`) is written as a run of a chosen length. -/

namespace Sys2Proof.Machine

/-- `L<n>` (level 0) or `H<n>` (level 1): `n` consecutive samples at one level (R87). -/
def runOf (l : Level) (n : Nat) : List Level := List.replicate n l

/-- A symbol as it stands on the line: `L<lo> H<hi>` (R73). -/
def symbolWave (lo hi : Nat) : List Level := runOf low lo ++ runOf high hi

/-- The pseudo-operations `Z = L50 H27` and `O = L50 H70` (R88). -/
def bitWave (b : Bool) : List Level := if b then symbolWave 50 70 else symbolWave 50 27

/-- The pseudo-operation `A = L80 H80` (R88). -/
def ackWave : List Level := symbolWave 80 80

/-- `BYTE(v)`: eight symbols, from bit 7 down to bit 0 (R88). -/
def byteWave (v : Byte) : List Level :=
  bitWave (v.getLsbD 7) ++ bitWave (v.getLsbD 6) ++ bitWave (v.getLsbD 5) ++ bitWave (v.getLsbD 4) ++
  bitWave (v.getLsbD 3) ++ bitWave (v.getLsbD 2) ++ bitWave (v.getLsbD 1) ++ bitWave (v.getLsbD 0)

/-- `FRAME(b0, b1, b2, b3, b4)` (R88). -/
def frameWave (b0 b1 b2 b3 b4 : Byte) : List Level :=
  byteWave b0 ++ byteWave b1 ++ byteWave b2 ++ byteWave b3 ++ byteWave b4

/-- `END = L50 H*`, with `n` high samples for `H*` (R88). -/
def endWave (n : Nat) : List Level := runOf low 50 ++ runOf high n

/-- `CS(b0, b1, b2, b3) = trunc_8(b0 + b1 + b2 + b3)` (R88). -/
def checksumOf (b0 b1 b2 b3 : Byte) : Byte := b0 + b1 + b2 + b3

/-- HS, the handshake waveform on the port `drive_low`, tick by tick (R72): 1 for `WAKE_TICKS`, then 0 for
the `RELEASE_TICKS` that are not sampled. -/
def handshakeWave (c : Config) : List Bool :=
  List.replicate c.wakeTicks true ++ List.replicate c.releaseTicks false

end Sys2Proof.Machine
end

