-- ==== Sys2Proof/Syntax.lean ====
section
/-! DEFINITION. The operations of the block: ONE inductive, one constructor per row of
spec/opcode_table.json (spec/30_encoding.md R82).  A constructor's operands are the row's don't-care bits
(its `source_fields`) or the fields its encoding names. -/

namespace Sys2Proof

/-- Every operation, in the table's order. -/
inductive Instr where
  /-- NEW, `CMD = 0b1x`: reset; `CMD[0]` (`start`) is ignored (R71, R100). -/
  | new (start : Bool)
  /-- MEASURE, `CMD = 0b01` (R102, R103). -/
  | measure
  /-- NOP, `CMD = 0b00` (R104). -/
  | nop
  /-- WAKE, `ST = 0b0001` (R110). -/
  | wake
  /-- RELEASE, `ST = 0b0010` (R111). -/
  | release
  /-- ACK, `ST = 0b010x`: `ST[0]` is the phase being measured (R112). -/
  | ack (phase : Level)
  /-- PULSE.L, `ST = 0b01x0`: `ST[1]` tells a data bit from the acknowledgement (R121). -/
  | pulseL (data : Bool)
  /-- PULSE.H, `ST = 0b01x1`: `ST[1]` tells a data bit from the acknowledgement (R122). -/
  | pulseH (data : Bool)
  /-- RDBIT, `ST = 0b011x`: `ST[0]` is the phase being measured (R125). -/
  | rdbit (phase : Level)
  /-- SHIFT, `ST ++ line_in = 0b01110` (R127). -/
  | shift
  /-- CSUM, `ST = 0b0011` (R140). -/
  | csum
  /-- XHUM, `ST = 0b0011` when the checksum matches (R142). -/
  | xhum
  /-- XTEMP, `ST = 0b0011` when the checksum matches (R143). -/
  | xtemp
  /-- FMT.H: render a Humidity (R151); outside the core, selected by nothing. -/
  | fmtH (v : Value)
  /-- FMT.T: render a Temperature (R152); outside the core, selected by nothing. -/
  | fmtT (v : Value)
  /-- REST.IDLE, `ST = 0b0000` (R24). -/
  | restIdle
  /-- REST.SUCCESS, `ST = 0b1000` (R24). -/
  | restSuccess
  /-- REST.FAILED, `ST = 0b1001` (R24). -/
  | restFailed
  /-- SYM.ZERO, `L<lo> H<hi>` with `hi ≤ lo` (R74). -/
  | symZero (lo hi : Nat)
  /-- SYM.ONE, `L<lo> H<hi>` with `hi > lo` (R74). -/
  | symOne (lo hi : Nat)
  /-- SYM.ACK, `L<lo> H<hi>` in first position after the release (R74). -/
  | symAck (lo hi : Nat)
  /-- SYM.TIMEOUT, `n ≥ 1000` consecutive samples at one level (R83). -/
  | symTimeout (level : Level) (n : Nat)
  /-- FRAME, the 40 bits `h g s t f c` in the order they arrive (R75). -/
  | frame (h g : Byte) (s : Bool) (t : BitVec 7) (f c : Byte)
  /-- OUT.NONE, `done ++ err = 0b000` (R79). -/
  | outNone
  /-- OUT.SUCCESS, `done ++ err = 0b100` (R79). -/
  | outSuccess
  /-- OUT.TIMEOUT, `done ++ err = 0b101`: the failure Timeout (R161). -/
  | outTimeout
  /-- OUT.CHECKSUM, `done ++ err = 0b110`: the failure ChecksumMismatch (R162). -/
  | outChecksum
  deriving DecidableEq, Repr

end Sys2Proof
end

