-- ==== Sys2Proof/WellFormed.lean ====
section
/-! DEFINITION. Which instructions are well formed: the ranges the opcode table gives the fields of a
symbol (spec/30_encoding.md R73, R74, R83), stated with the parameter `TIMEOUT_TICKS` (1000 by default, so
999 is the longest phase).  Every other operand fills its bits, so any value of it is legal (R83). -/

namespace Sys2Proof

/-- The check, for a configuration.  The range of SYM.ONE's `lo` is the table's, from 0 up; that no place in the run narrows it,
although R73 says that a data symbol has `lo ≥ 1`, is THE MODEL'S CHOICE (log entry 24). -/
def Instr.wellFormed (c : Config) : Instr → Bool
  | .symZero lo hi => decide (lo < c.timeoutTicks) && decide (1 ≤ hi) && decide (hi ≤ lo)
  | .symOne lo hi => decide (lo < hi) && decide (hi < c.timeoutTicks)
  | .symAck lo hi =>
    decide (lo < c.timeoutTicks) && decide (1 ≤ hi) && decide (hi < c.timeoutTicks)
  | .symTimeout _ n => decide (c.timeoutTicks ≤ n)
  | .new _ | .measure | .nop | .wake | .release | .ack _ | .pulseL _ | .pulseH _ | .rdbit _
  | .shift | .csum | .xhum | .xtemp | .fmtH _ | .fmtT _ | .restIdle | .restSuccess | .restFailed
  | .frame _ _ _ _ _ _ | .outNone | .outSuccess | .outTimeout | .outChecksum => true

end Sys2Proof
end

