-- ==== Sys2Proof/Decode.lean ====
section
/-! DEFINITION. The decoder and the encoder, written from the formats of spec/30_encoding.md R70 to R82 and
the match words of spec/opcode_table.json.

A code is a format and the bits (or samples, or characters) it carries: the same bits mean different things on
the command port, in the sequencer's state and on the outcome port.  SEVERAL ROWS SHARE A STATE CODE: ACK and
RDBIT are composed of PULSE.L and PULSE.H, and CSUM, XHUM and XTEMP run in one tick.  So the decoder answers the
LIST of the rows a code selects: first those whose match word is the code itself, in the table's order, then
those that match it under their mask (log entry 12). -/

namespace Sys2Proof

/-- Where a symbol stands in a run: in first position after the release it is the acknowledgement
(R74; spec/20_memory.md R55). -/
inductive SymbolPlace where
  | first
  | data
  deriving DecidableEq, Repr

/-- A code in one of the formats of R70, or the internal key `ST` or `ST ++ line_in` (R80). -/
inductive Code where
  /-- CMD: `rst ++ start` (R71). -/
  | cmd (w : BitVec 2)
  /-- The internal key `ST` (R80). -/
  | st (w : BitVec 4)
  /-- The internal key `ST ++ line_in` (R80). -/
  | stLine (w : BitVec 5)
  /-- SYM: the samples of one symbol (R73). -/
  | sym (place : SymbolPlace) (samples : List Level)
  /-- FRAME: forty bits, the first to arrive the most significant (R75). -/
  | frame (w : BitVec 40)
  /-- OUT: `done ++ err` (R79). -/
  | out (w : BitVec 3)
  /-- TXT: the characters of a rendered value (R81). -/
  | txt (cs : List Char)
  deriving DecidableEq, Repr

/-- The formats of R70 that an instruction is encoded in, and the two internal keys of R80. -/
inductive Format where
  | CMD
  | ST
  | STLINE
  | SYM
  | FRAME
  | OUT
  | TXT
  deriving DecidableEq, Repr

/-- The format of a code. -/
def Code.format : Code → Format
  | .cmd _ => .CMD
  | .st _ => .ST
  | .stLine _ => .STLINE
  | .sym _ _ => .SYM
  | .frame _ => .FRAME
  | .out _ => .OUT
  | .txt _ => .TXT

/-- The `format` column of the opcode table. -/
def Instr.format : Instr → Format
  | .new _ | .measure | .nop => .CMD
  | .wake | .release | .ack _ | .pulseL _ | .pulseH _ | .rdbit _ | .csum | .xhum | .xtemp
  | .restIdle | .restSuccess | .restFailed => .ST
  | .shift => .STLINE
  | .fmtH _ | .fmtT _ => .TXT
  | .symZero _ _ | .symOne _ _ | .symAck _ _ | .symTimeout _ _ => .SYM
  | .frame _ _ _ _ _ _ => .FRAME
  | .outNone | .outSuccess | .outTimeout | .outChecksum => .OUT

/-- Why a code is rejected. -/
inductive DecodeError where
  /-- A state code `0b1010` to `0b1111`: never taken (spec/10_state.md R24). -/
  | unusedStateCode (w : BitVec 4)
  /-- A key `ST ++ line_in` other than `0b01110`: it selects no row of that format. -/
  | keySelectsNothing (w : BitVec 5)
  /-- `done ++ err` is `0b001`, `0b010`, `0b011` or `0b111`: these never occur (R79). -/
  | outcomeNeverOccurs (w : BitVec 3)
  /-- The samples hold no complete high phase: a symbol ends with one (R73). -/
  | incompleteSymbol
  /-- The samples go on after one low and one high phase. -/
  | moreThanOneSymbol
  /-- A phase of `TIMEOUT_TICKS` or more beside another phase: the measurement has failed before or there (R73). -/
  | phaseTooLong
  /-- The characters are no rendering of a value (R151, R152). -/
  | notARendering
  deriving DecidableEq, Repr

/-! ## Decoding -/

/-- The command word of one tick (R71).  Every word is a command. -/
def decodeCmd (w : BitVec 2) : Instr :=
  if w.getLsbD 1 then .new (w.getLsbD 0) else if w.getLsbD 0 then .measure else .nop

/-- The rows a state code selects (R80, R82). -/
def decodeSt (w : BitVec 4) : Except DecodeError (List Instr) :=
  match w.toNat with
  | 0 => .ok [.restIdle]
  | 1 => .ok [.wake]
  | 2 => .ok [.release]
  | 3 => .ok [.csum, .xhum, .xtemp]
  | 4 => .ok [.ack low, .pulseL false]
  | 5 => .ok [.pulseH false, .ack high]
  | 6 => .ok [.rdbit low, .pulseL true]
  | 7 => .ok [.pulseH true, .rdbit high]
  | 8 => .ok [.restSuccess]
  | 9 => .ok [.restFailed]
  | _ => .error (.unusedStateCode w)

/-- The row a key `ST ++ line_in` selects: SHIFT only (R80, R127). -/
def decodeStLine (w : BitVec 5) : Except DecodeError (List Instr) :=
  if w = 0b01110#5 then .ok [.shift] else .error (.keySelectsNothing w)

/-- The outcome a status pattern stands for (R79). -/
def decodeOut (w : BitVec 3) : Except DecodeError (List Instr) :=
  match w.toNat with
  | 0 => .ok [.outNone]
  | 4 => .ok [.outSuccess]
  | 5 => .ok [.outTimeout]
  | 6 => .ok [.outChecksum]
  | _ => .error (.outcomeNeverOccurs w)

/-- How many samples at level `l` a list begins with. -/
def leading (l : Level) : List Level → Nat
  | [] => 0
  | x :: xs => if x = l then leading l xs + 1 else 0

/-- The symbol that a list of samples is, whole (R73, R74, R83): its low phase, then its high phase.  High samples alone at a
place other than the first, which R73 says cannot occur, are read by R74's comparison as SYM.ONE with `lo = 0`: THE MODEL'S
CHOICE (log entry 24).  Which lists are refused is the model's too (log entry 25). -/
def decodeSym (c : Config) (place : SymbolPlace) (samples : List Level) : Except DecodeError (List Instr) :=
  let lo := leading low samples
  let hi := leading high (samples.drop lo)
  if lo + hi ≠ samples.length then .error .moreThanOneSymbol
  else if c.timeoutTicks ≤ lo then
    if hi = 0 then .ok [.symTimeout low lo] else .error .phaseTooLong
  else if c.timeoutTicks ≤ hi then
    if lo = 0 then .ok [.symTimeout high hi] else .error .phaseTooLong
  else if hi = 0 then .error .incompleteSymbol
  else
    match place with
    | .first => .ok [.symAck lo hi]
    | .data => if lo < hi then .ok [.symOne lo hi] else .ok [.symZero lo hi]

/-- The frame's fields, `hhhhhhhh gggggggg sttttttt ffffffff cccccccc` (R75). -/
def decodeFrame (w : BitVec 40) : Instr :=
  .frame (w.extractLsb' 32 8) (w.extractLsb' 24 8) (w.getLsbD 23) (w.extractLsb' 16 7)
    (w.extractLsb' 8 8) (w.extractLsb' 0 8)

/-- The value of a decimal digit. -/
def digitValue (ch : Char) : Option Nat :=
  if '0' ≤ ch ∧ ch ≤ '9' then some (ch.toNat - 48) else none

/-- The digits a text goes on with, added to the number read so far, and the rest of the text. -/
def readDigits : (acc : Nat) → List Char → Nat × List Char
  | acc, [] => (acc, [])
  | acc, ch :: cs =>
    match digitValue ch with
    | some d => readDigits (acc * 10 + d) cs
    | none => (acc, ch :: cs)

/-- A numeral without leading zeros, and the rest of the text. -/
def readNumeral : List Char → Option (Nat × List Char)
  | [] => none
  | ch :: cs =>
    match digitValue ch with
    | none => none
    | some 0 => some (0, cs)
    | some d => some (readDigits d cs)

/-- `<integer part>.<one digit>` and the rest of the text, as a number of tenths. -/
def readTenths (cs : List Char) : Option (Nat × List Char) :=
  match readNumeral cs with
  | some (ip, '.' :: d :: rest) =>
    match digitValue d with
    | some f => some (ip * 10 + f, rest)
    | none => none
  | _ => none

/-- The value a text renders (R151, R152): the unit tells which. -/
def decodeTxt (cs : List Char) : Except DecodeError (List Instr) :=
  match cs with
  | '-' :: body =>
    match readTenths body with
    | some (m, ['°', 'C']) =>
      if 1 ≤ m ∧ m ≤ 32768 then .ok [.fmtT (0 - BitVec.ofNat 16 m)] else .error .notARendering
    | _ => .error .notARendering
  | body =>
    match readTenths body with
    | some (m, ['°', 'C']) =>
      if m ≤ 32767 then .ok [.fmtT (BitVec.ofNat 16 m)] else .error .notARendering
    | some (m, ['%']) =>
      if m ≤ 65535 then .ok [.fmtH (BitVec.ofNat 16 m)] else .error .notARendering
    | _ => .error .notARendering

/-- The rows a code selects, or why it is rejected.  Total on every code. -/
def decode (c : Config) : Code → Except DecodeError (List Instr)
  | .cmd w => .ok [decodeCmd w]
  | .st w => decodeSt w
  | .stLine w => decodeStLine w
  | .sym place samples => decodeSym c place samples
  | .frame w => .ok [decodeFrame w]
  | .out w => decodeOut w
  | .txt cs => decodeTxt cs

/-! ## Encoding -/

/-- The code of an instruction, from the same table.  FMT.H and FMT.T have no word that selects them (R82); the
format TXT carries the text they render. -/
def encode : Instr → Code
  | .new start => .cmd (0b10#2 ||| (BitVec.ofBool start).setWidth 2)
  | .measure => .cmd 0b01#2
  | .nop => .cmd 0b00#2
  | .wake => .st 0b0001#4
  | .release => .st 0b0010#4
  | .ack phase => .st (0b0100#4 ||| (BitVec.ofBool phase).setWidth 4)
  | .pulseL data => .st (0b0100#4 ||| (BitVec.ofBool data).setWidth 4 <<< 1)
  | .pulseH data => .st (0b0101#4 ||| (BitVec.ofBool data).setWidth 4 <<< 1)
  | .rdbit phase => .st (0b0110#4 ||| (BitVec.ofBool phase).setWidth 4)
  | .shift => .stLine 0b01110#5
  | .csum => .st 0b0011#4
  | .xhum => .st 0b0011#4
  | .xtemp => .st 0b0011#4
  | .fmtH v => .txt (Machine.renderHum v)
  | .fmtT v => .txt (Machine.renderTemp v)
  | .restIdle => .st 0b0000#4
  | .restSuccess => .st 0b1000#4
  | .restFailed => .st 0b1001#4
  | .symZero lo hi => .sym .data (Machine.symbolWave lo hi)
  | .symOne lo hi => .sym .data (Machine.symbolWave lo hi)
  | .symAck lo hi => .sym .first (Machine.symbolWave lo hi)
  | .symTimeout level n => .sym .data (Machine.runOf level n)
  | .frame h g s t f c => .frame (h ++ g ++ (BitVec.ofBool s ++ t) ++ f ++ c)
  | .outNone => .out 0b000#3
  | .outSuccess => .out 0b100#3
  | .outTimeout => .out 0b101#3
  | .outChecksum => .out 0b110#3

/-! ## The host's question: a word of the table -/

/-- The code that a table word of `nbits` bits stands for.  A width of 2, 3, 4, 5 or 40 is that of one format
(CMD, OUT, ST, ST+LINE, FRAME).  A word given in one whole byte names no format: it is read as the first row of
the table, in its order, whose match word it is (log entry 11): a CMD word 0, 1 or 2, then a state code, then the
key of SHIFT. -/
def tableCode (nbits w : Nat) : Option Code :=
  match nbits with
  | 2 => if w < 4 then some (.cmd (BitVec.ofNat 2 w)) else none
  | 3 => if w < 8 then some (.out (BitVec.ofNat 3 w)) else none
  | 4 => if w < 16 then some (.st (BitVec.ofNat 4 w)) else none
  | 5 => if w < 32 then some (.stLine (BitVec.ofNat 5 w)) else none
  | 8 =>
    if w < 3 then some (.cmd (BitVec.ofNat 2 w))
    else if w < 10 then some (.st (BitVec.ofNat 4 w))
    else if w = 14 then some (.stLine 0b01110#5)
    else none
  | 40 => if w < 2 ^ 40 then some (.frame (BitVec.ofNat 40 w)) else none
  | _ => none

/-- The instruction the decoder reads from a table word: the first row its code selects. -/
def decodeTableWord (nbits w : Nat) : Option Instr :=
  match tableCode nbits w with
  | none => none
  | some code =>
    match decode Config.standard code with
    | .ok (i :: _) => some i
    | _ => none

end Sys2Proof
end

