-- ==== Sys2Proof/Machine/State.lean ====
section
/-! DEFINITION. The state of the block and of what stands around it, as plain data (spec/10_state.md), the reset
state (R38), and the reasons a step can stop. -/

namespace Sys2Proof.Machine

/-- `ST`: the ten sequencer states (R24). -/
inductive St where
  | idle
  | wake
  | release
  | validate
  | ackLow
  | ackHigh
  | bitLow
  | bitHigh
  | success
  | failed
  deriving DecidableEq, Repr

/-- The four-bit codes of the states (R24, R80).  An enumeration has no value for the unused codes (spec/93 U9). -/
def St.code : St → BitVec 4
  | .idle => 0b0000#4
  | .wake => 0b0001#4
  | .release => 0b0010#4
  | .validate => 0b0011#4
  | .ackLow => 0b0100#4
  | .ackHigh => 0b0101#4
  | .bitLow => 0b0110#4
  | .bitHigh => 0b0111#4
  | .success => 0b1000#4
  | .failed => 0b1001#4

/-- The two failure kinds (spec/60_exceptions.md R160). -/
inductive Failure where
  | timeout
  | checksumMismatch
  deriving DecidableEq, Repr

/-- `ERR`: the failure kind of the last finished run, an enumeration of three values (R29, R163). -/
inductive Err where
  | none
  | timeout
  | checksumMismatch
  deriving DecidableEq, Repr

/-- The port encoding of `ERR` (R29, R163, decision D12). -/
def Err.code : Err → BitVec 2
  | .none => 0b00#2
  | .timeout => 0b01#2
  | .checksumMismatch => 0b10#2

/-- The value of `ERR` that records a failure. -/
def Failure.err : Failure → Err
  | .timeout => .timeout
  | .checksumMismatch => .checksumMismatch

/-- `F[0]` to `F[4]`: the Raw Frame (R21). -/
structure Frame where
  b0 : Byte
  b1 : Byte
  b2 : Byte
  b3 : Byte
  b4 : Byte
  deriving DecidableEq, Repr

/-- The inputs of one tick, `(rst, start, line)` (R30).  `line = none` leaves the level of the line free
(spec/20_memory.md R68). -/
structure Input where
  rst : Bool
  start : Bool
  line : Option Level
  deriving DecidableEq, Repr

/-- The state. `st` to `hum` are the block's registers, the table of R20 whole (log entry 20); `cfg` holds the
parameters, which nothing writes (log entry 1). The counters and the two results are numbers: their widths are
parameters of `cfg`, and every arithmetic result is cut to its width when it is written (log entry 19). The last four
fields are the model's own and stand for what is around the block: the ports, the inputs still to come, the number of
ticks begun, and the text rendered last (log entries 3, 4 and 10). -/
structure State where
  /-- The parameters of R7. -/
  cfg : Config
  /-- `ST`, the sequencer state (R24). -/
  st : St
  /-- `IDX`, the bit position being read, 0..39, `W_IDX` bits (R25). -/
  idx : Nat
  /-- `DLY`, the ticks spent so far in a handshake delay, `W_DLY` bits (R28). -/
  dly : Nat
  /-- `CNT`, the samples counted in the pulse being measured, `W_CNT` bits (R26). -/
  cnt : Nat
  /-- `LO`, the low-phase duration of the current bit-read cycle, `W_CNT` bits (R27). -/
  lo : Nat
  /-- `F[0..4]`, the Raw Frame (R21). -/
  f : Frame
  /-- `ERR`, the failure kind of the last finished run (R29). -/
  err : Err
  /-- `TEMP`, tenths of a degree Celsius, signed, `W_VAL` bits (R22). -/
  temp : Int
  /-- `HUM`, tenths of a percent, unsigned, `W_VAL` bits (R23). -/
  hum : Nat
  /-- The input ports during the tick in progress (R30). -/
  inp : Input
  /-- The inputs of the ticks to come, the next one first; past its end no command is given and the line is free. -/
  inputs : List Input
  /-- The number of ticks begun since the run of the model started (R11 numbers ticks; no register of the block). -/
  tick : Nat
  /-- The characters FMT.H or FMT.T rendered last (R150: outside the core). -/
  text : List Char
  deriving DecidableEq, Repr

/-- The block's registers alone (the table of R20): what a claim about "the block" compares. -/
structure Registers where
  st : St
  idx : Nat
  dly : Nat
  cnt : Nat
  lo : Nat
  f : Frame
  err : Err
  temp : Int
  hum : Nat
  deriving DecidableEq, Repr

/-- The registers of a state. -/
def State.registers (s : State) : Registers :=
  ⟨s.st, s.idx, s.dly, s.cnt, s.lo, s.f, s.err, s.temp, s.hum⟩

/-- A Raw Frame of zeros. -/
def Frame.zero : Frame := ⟨0#8, 0#8, 0#8, 0#8, 0#8⟩

/-- No command and a free line: what a tick reads that no input was given for. -/
def Input.quiet : Input := ⟨false, false, none⟩

/-- The state right after reset: every register as R38 states it, the standard parameters, no input given. -/
def State.reset : State where
  cfg := Config.standard
  st := .idle
  idx := 0
  dly := 0
  cnt := 0
  lo := 0
  f := Frame.zero
  err := .none
  temp := 0
  hum := 0
  inp := Input.quiet
  inputs := []
  tick := 0
  text := []

/-- The machine has no fault: the block's two failures are results of a run, and a step is total
(spec/60_exceptions.md R179). -/
inductive Fault : Type
  deriving DecidableEq, Repr

/-- Why a step has no meaning. -/
inductive Refusal where
  /-- An arm of `exec` whose instruction has no meaning yet.  Safe: nothing is claimed of it. -/
  | notModelled (mnemonic : String)
  /-- Raised by `step` when the parameters are outside spec/00_scope.md R8: a model refuses such a configuration
  (R179, spec/93 U1).  Safe: the model stops where the rules give nothing. -/
  | configuration
  deriving DecidableEq, Repr

/-- What a meaning or a step answers. -/
abbrev Result := Host.Outcome State Fault Refusal

end Sys2Proof.Machine
end

