-- ==== Sys2Proof/Machine/Operands.lean ====
section
/-! DEFINITION. Operands: what an operation reads and how it is put together. Cutting a result to a width; the sample
of the line (spec/20_memory.md R50), the bytes of the Raw Frame (spec/10_state.md R36), the frame's fields and the
values assembled from them (spec/30_encoding.md R75 to R78), the bits of the state code (R80) and the command word
(R71). -/

namespace Sys2Proof.Machine

/-! ## Widths -/

/-- `trunc_n(v)`: the `n` low bits of an unsigned value (spec/00_scope.md R9). -/
def trunc (n v : Nat) : Nat := v % 2 ^ n

/-- The value of `n` bits, two's complement, that an integer leaves (spec/00_scope.md R9). -/
def truncSigned (n : Nat) (v : Int) : Int := v.bmod (2 ^ n)

/-! ## The line -/

/-- `Sample()`: the level of the line at the tick in progress (R50); a free draw where the input leaves it free
(R68). -/
def State.sample (s : State) : Level :=
  match s.inp.line with
  | some l => l
  | none => Config.freeLine s.tick

/-! ## The Raw Frame, by byte number -/

/-- `F[j]`, for `j` in 0..4 (R36).  There is no byte 5; no reachable state names one (R127, log entry 14). -/
def Frame.get (f : Frame) (j : Nat) : Byte :=
  match j with
  | 0 => f.b0
  | 1 => f.b1
  | 2 => f.b2
  | 3 => f.b3
  | 4 => f.b4
  | _ => 0#8

/-- `F[j] <- v`, for `j` in 0..4 (R36); another byte number writes nothing. -/
def Frame.set (f : Frame) (j : Nat) (v : Byte) : Frame :=
  match j with
  | 0 => { f with b0 := v }
  | 1 => { f with b1 := v }
  | 2 => { f with b2 := v }
  | 3 => { f with b3 := v }
  | 4 => { f with b4 := v }
  | _ => f

/-- `F[p div 8] <- trunc_8(F[p div 8] << 1) | b`: the byte of bit position `p` moves left and `b` enters at bit 0
(spec/42_pulse_discriminator.md R127, R76). -/
def Frame.shiftBit (f : Frame) (p : Nat) (b : Bool) : Frame :=
  f.set (p / 8) ((f.get (p / 8) <<< 1) ||| (BitVec.ofBool b).setWidth 8)

/-! ## The frame's fields and the values assembled from them -/

/-- `HUM_INT = F[0]` (R77). -/
def Frame.humInt (f : Frame) : Byte := f.b0

/-- `HUM_FRAC = F[1]` (R77). -/
def Frame.humFrac (f : Frame) : Byte := f.b1

/-- `T_SIGN = F[2][7]` (R77). -/
def Frame.tSign (f : Frame) : Bool := f.b2.getLsbD 7

/-- `T_MAG = F[2] & 0x7F` (R77). -/
def Frame.tMag (f : Frame) : Byte := f.b2 &&& 0x7F#8

/-- `T_FRAC = F[3]` (R77). -/
def Frame.tFrac (f : Frame) : Byte := f.b3

/-- `CSUM = F[4]` (R77). -/
def Frame.csum (f : Frame) : Byte := f.b4

/-- `trunc_8(F[0] + F[1] + F[2] + F[3])`: the wrapping sum (spec/43_checksum_extract.md R140). -/
def Frame.sum (f : Frame) : Byte := f.b0 + f.b1 + f.b2 + f.b3

/-- `x × 10 + y` of two bytes (R53, R78): a decimal composition, not a concatenation. -/
def decimal (x y : Byte) : Nat := x.toNat * 10 + y.toNat

/-- The Humidity of a frame (R78, spec/43 R142). -/
def Frame.humidity (f : Frame) : Nat := decimal f.humInt f.humFrac

/-- The Temperature's magnitude (R78, spec/43 R143). -/
def Frame.magnitude (f : Frame) : Nat := decimal f.tMag f.tFrac

/-- The Temperature of a frame: the whole magnitude negated when the sign flag is set (R78, spec/43 R143). -/
def Frame.temperature (f : Frame) : Int := if f.tSign then -(f.magnitude : Int) else f.magnitude

/-- The frame of the five fields of R75: `F[2]` is the sign flag over the magnitude. -/
def Frame.ofFields (h g : Byte) (s : Bool) (t : BitVec 7) (f c : Byte) : Frame :=
  ⟨h, g, BitVec.ofBool s ++ t, f, c⟩

/-! ## The state code and the command word -/

/-- The resting states: MEASURE is accepted there (spec/10_state.md R24). -/
def St.resting : St → Bool
  | .idle | .success | .failed => true
  | _ => false

/-- The measuring states, those whose code has bit 2 set: the only ones that sample the line (R24, R80). -/
def St.measuring (x : St) : Bool := x.code.getLsbD 2

/-- The level a measuring state measures: bit 0 of its code (R80). -/
def St.level (x : St) : Level := x.code.getLsbD 0

/-- In a measuring state, a data bit and not the acknowledgement: bit 1 of the code (R80). -/
def St.data (x : St) : Bool := x.code.getLsbD 1

/-- The state that measures a phase: ACK_LOW, ACK_HIGH, BIT_LOW or BIT_HIGH (R24). -/
def St.measure (data : Bool) (level : Level) : St :=
  match data, level with
  | false, false => .ackLow
  | false, true => .ackHigh
  | true, false => .bitLow
  | true, true => .bitHigh

/-- The state with a given code; the unused codes have none (R24, spec/93 U9). -/
def St.ofCode (w : BitVec 4) : Option St :=
  [St.idle, .wake, .release, .validate, .ackLow, .ackHigh, .bitLow, .bitHigh, .success, .failed].find?
    (fun x => x.code == w)

/-- The command word of a tick, `CMD[1:0] = rst ++ start` (R71, spec/10_state.md R32). -/
def Input.cmd (i : Input) : BitVec 2 := BitVec.ofBool i.rst ++ BitVec.ofBool i.start

end Sys2Proof.Machine
end

