-- ==== Sys2Proof/Machine/Flags.lean ====
section
/-! DEFINITION. Flags and conditions: every test an operation makes, and every output port, which is a function of
the registers alone (spec/10_state.md R31, R33, R41). -/

namespace Sys2Proof.Machine

/-! ## Conditions -/

/-- The transient decoded bit, `b = (CNT > LO)`: the discriminator, an unsigned comparison
(spec/42_pulse_discriminator.md R126). -/
def State.decodedBit (s : State) : Bool := decide (s.lo < s.cnt)

/-- `CNT + 1 = TIMEOUT_TICKS`: one more sample at the measured level is the last (R124). -/
def State.lastSample (s : State) : Bool := decide (s.cnt + 1 = s.cfg.timeoutTicks)

/-- The line shows the level being measured. -/
def State.sampleMatches (s : State) : Bool := s.sample == s.st.level

/-- The condition of Timeout: a measuring state, its level on the line, the count one short (R124). -/
def State.timeoutNow (s : State) : Bool := s.st.measuring && s.sampleMatches && s.lastSample

/-- `trunc_8(F[0] + F[1] + F[2] + F[3]) = F[4]` (spec/43_checksum_extract.md R140). -/
def State.checksumOk (s : State) : Bool := s.f.sum == s.f.csum

/-- `DLY = WAKE_TICKS − 1` (spec/41_handshake.md R110). -/
def State.wakeDone (s : State) : Bool := decide (s.dly + 1 = s.cfg.wakeTicks)

/-- `DLY = RELEASE_TICKS − 1` (spec/41_handshake.md R111). -/
def State.releaseDone (s : State) : Bool := decide (s.dly + 1 = s.cfg.releaseTicks)

/-! ## Output ports -/

/-- `drive_low`: 1 exactly when `ST = WAKE` (R31). -/
def State.driveLow (s : State) : Bool := s.st == .wake

/-- `Drive`: the level the block puts on the open-drain line, 0 pulls it low, 1 releases it
(spec/20_memory.md R50, R51). -/
def State.drive (s : State) : Level := !s.driveLow

/-- `busy` (R31). -/
def State.busy (s : State) : Bool :=
  match s.st with
  | .wake | .release | .ackLow | .ackHigh | .bitLow | .bitHigh | .validate => true
  | .idle | .success | .failed => false

/-- `done` (R31). -/
def State.done (s : State) : Bool :=
  match s.st with
  | .success | .failed => true
  | _ => false

/-- The output ports (R31). -/
structure Outputs where
  driveLow : Bool
  busy : Bool
  done : Bool
  err : BitVec 2
  temp : Int
  hum : Nat
  deriving DecidableEq, Repr

/-- The output ports of a state (R31). -/
def State.outputs (s : State) : Outputs := ⟨s.driveLow, s.busy, s.done, s.err.code, s.temp, s.hum⟩

/-- The pattern on the port `temp`, `W_VAL` bits, two's complement (R31, spec/30_encoding.md R79). -/
def State.tempPattern (s : State) : BitVec s.cfg.wVal := BitVec.ofInt s.cfg.wVal s.temp

/-- The pattern on the port `hum`, `W_VAL` bits (R31, spec/30_encoding.md R79). -/
def State.humPattern (s : State) : BitVec s.cfg.wVal := BitVec.ofNat s.cfg.wVal s.hum

/-- The status word, `STATUS[3:0] = done ++ busy ++ err[1:0]` (R32). -/
def State.statusWord (s : State) : BitVec 4 := BitVec.ofBool s.done ++ BitVec.ofBool s.busy ++ s.err.code

/-- The status part of the format OUT, `done ++ err[1:0]` (spec/30_encoding.md R79). -/
def State.outWord (s : State) : BitVec 3 := BitVec.ofBool s.done ++ s.err.code

/-- The Measurement Outcome (R41). -/
inductive Measurement where
  | none
  | success (temp : Int) (hum : Nat)
  | failed (kind : Failure)
  deriving DecidableEq, Repr

/-- The outcome a host reads from the ports (R41): it reads `done` and `err`, and the values only on Success. -/
def Outputs.measurement (o : Outputs) : Measurement :=
  if o.done then
    if o.err = 0b01#2 then .failed .timeout
    else if o.err = 0b10#2 then .failed .checksumMismatch
    else .success o.temp o.hum
  else .none

end Sys2Proof.Machine
end

