-- ==== Sys2Proof/Machine/Ops.lean ====
section
/-! DEFINITION. The shared operations on the state: raising a failure and the return from it, reset, the input of a
tick, counting a sample, the ends of the phases, the shift into the frame.  The meanings (the files of the
families) call these; all right sides read the state before the tick (spec/00_scope.md R10, R11). -/

namespace Sys2Proof.Machine

/-! ## Failures: entry and return -/

/-- RAISING A FAILURE, the block's exception entry (spec/60_exceptions.md R167): `ST <- FAILED; ERR <- kind`, and nothing
else is written. -/
def State.raise (k : Failure) (s : State) : State := { s with st := .failed, err := k.err }

/-- ACCEPTANCE OF MEASURE (spec/40_commands.md R102), which is also the only return from a failure beside reset
(spec/60_exceptions.md R169). -/
def State.accept (s : State) : State :=
  { s with
    st := .wake, dly := 0, cnt := 0, lo := 0, idx := 0
    f := Frame.zero, err := .none, temp := 0, hum := 0 }

/-- RESET (spec/40_commands.md R100, spec/70_reset_and_hazards.md R190): every register takes its reset value (R38).  The
parameters and the model's own fields are no registers of the block (log entry 16). -/
def State.resetRegisters (s : State) : State :=
  { s with
    st := .idle, idx := 0, dly := 0, cnt := 0, lo := 0
    f := Frame.zero, err := .none, temp := 0, hum := 0 }

/-- The run ends with Success: `ST <- SUCCESS` (spec/43_checksum_extract.md R141). -/
def State.succeed (s : State) : State := { s with st := .success }

/-! ## The input of a tick -/

/-- The next tick begins: its input comes to the ports (spec/00_scope.md R11; past the end of the list no command and a
free line, log entry 3). -/
def State.present (s : State) : State :=
  match s.inputs with
  | [] => { s with inp := Input.quiet, tick := s.tick + 1 }
  | i :: is => { s with inp := i, inputs := is, tick := s.tick + 1 }

/-- A tick begins with a given input; the list of inputs to come is left alone. -/
def State.withInput (i : Input) (s : State) : State := { s with inp := i, tick := s.tick + 1 }

/-! ## Delays -/

/-- One tick of WAKE (spec/41_handshake.md R110). -/
def State.wakeTick (s : State) : State :=
  if s.wakeDone then { s with st := .release, dly := 0 } else { s with dly := trunc s.cfg.wDly (s.dly + 1) }

/-- One tick of RELEASE (spec/41_handshake.md R111). -/
def State.releaseTick (s : State) : State :=
  if s.releaseDone then { s with st := .ackLow, dly := 0, cnt := 0 }
  else { s with dly := trunc s.cfg.wDly (s.dly + 1) }

/-! ## Pulses (spec/42_pulse_discriminator.md) -/

/-- A sample at the measured level: it is counted, or it is the `TIMEOUT_TICKS`-th and raises Timeout (R121, R122,
R124). -/
def State.countSample (s : State) : State :=
  if s.lastSample then s.raise .timeout else { s with cnt := trunc s.cfg.wCnt (s.cnt + 1) }

/-- The end of a low phase, at its first high sample: the count is latched and the sample counts for the high phase
(R121, R123). -/
def State.endLow (next : St) (s : State) : State := { s with lo := s.cnt, cnt := 1, st := next }

/-- The end of the acknowledgement's high phase, at its first low sample (spec/41_handshake.md R112). -/
def State.endAck (s : State) : State := { s with cnt := 1, idx := 0, st := .bitLow }

/-- `F[IDX div 8] <- trunc_8(F[IDX div 8] << 1) | b` with `b = (CNT > LO)` (R126, R127). -/
def State.shiftIn (s : State) : State := { s with f := s.f.shiftBit s.idx s.decodedBit }

/-- The bit loop: the next bit position, or VALIDATE after position 39, where `CNT`, `LO` and `IDX` keep their values
(R122, R128). -/
def State.nextBit (s : State) : State :=
  if s.idx = 39 then { s with st := .validate }
  else { s with idx := trunc s.cfg.wIdx (s.idx + 1), cnt := 1, st := .bitLow }

/-- One tick of a low phase (R121); `next` measures the high phase. -/
def State.lowTick (next : St) (s : State) : State :=
  if s.sample = low then s.countSample else s.endLow next

/-- One tick of the acknowledgement's high phase (R122, spec/41 R112). -/
def State.ackHighTick (s : State) : State :=
  if s.sample = high then s.countSample else s.endAck

/-- One tick of a data bit's high phase (R122): the ending tick decides the bit, shifts it in and moves on. -/
def State.bitHighTick (s : State) : State :=
  if s.sample = high then s.countSample else s.shiftIn.nextBit

/-! ## Placing an instruction where the next step reads it -/

/-- `s` with the state code and the input that make the next tick run a given operation: a command is put on the command
port; an operation that a state code selects gets that state and no command (and, in a measuring state, a sample);
an outcome gets a state whose next tick ends with it; samples are put on the line (log entry 13). -/
def State.place (i : Instr) (s : State) : State :=
  let idleTick : State := { s with inputs := Input.quiet :: s.inputs }
  let sampled (x : St) (l : Level) : State := { s with st := x, inputs := ⟨false, false, some l⟩ :: s.inputs }
  let wave (w : List Level) : State := { s with inputs := w.map (fun l => ⟨false, false, some l⟩) ++ s.inputs }
  match i with
  | .new start => { s with inputs := ⟨true, start, none⟩ :: s.inputs }
  | .measure => { s with inputs := ⟨false, true, none⟩ :: s.inputs }
  | .nop => idleTick
  | .wake => { idleTick with st := .wake }
  | .release => { idleTick with st := .release }
  | .ack phase => sampled (St.measure false phase) phase
  | .pulseL data => sampled (St.measure data low) low
  | .pulseH data => sampled (St.measure data high) high
  | .rdbit phase => sampled (St.measure true phase) phase
  | .shift => sampled .bitHigh low
  | .csum => { idleTick with st := .validate }
  | .xhum => { idleTick with st := .validate }
  | .xtemp => { idleTick with st := .validate }
  | .restIdle => { idleTick with st := .idle }
  | .restSuccess => { idleTick with st := .success }
  | .restFailed => { idleTick with st := .failed }
  | .symZero lo hi => wave (symbolWave lo hi)
  | .symOne lo hi => wave (symbolWave lo hi)
  | .symAck lo hi => wave (symbolWave lo hi)
  | .symTimeout level n => wave (runOf level n)
  | .frame h g sg t f c =>
    let fr := Frame.ofFields h g sg t f c
    wave (frameWave fr.b0 fr.b1 fr.b2 fr.b3 fr.b4)
  | .outNone => idleTick
  | .outSuccess => { idleTick with st := .validate, f := { s.f with b4 := s.f.sum } }
  | .outTimeout => { sampled .ackLow low with cnt := s.cfg.timeoutTicks - 1 }
  | .outChecksum => { idleTick with st := .validate, f := { s.f with b4 := s.f.sum + 1#8 } }
  | .fmtH _ => s
  | .fmtT _ => s

end Sys2Proof.Machine
end

