-- ==== Sys2Proof/Machine/Handshake.lean ====
section
/-! DEFINITION. The handshake: WAKE, RELEASE, ACK (spec/41_handshake.md).  A micro-operation writes only at a tick whose
state code selects it (spec/30_encoding.md R82, "Selected by"); at any other tick it writes nothing (log entry 5). -/

namespace Sys2Proof.Machine

/-- WAKE (R110). -/
def State.wakeOp (s : State) : State := if s.st = .wake then s.wakeTick else s

/-- RELEASE (R111). -/
def State.releaseOp (s : State) : State := if s.st = .release then s.releaseTick else s

/-- ACK (R112): ACK_LOW is PULSE.L, ACK_HIGH is PULSE.H with its own ending; the comparison is discarded. -/
def State.ackOp (phase : Level) (s : State) : State :=
  if s.st = St.measure false phase then
    if phase then s.ackHighTick else s.lowTick .ackHigh
  else s

/-- The meaning of WAKE. -/
def execWake (s : State) : Result := .next s.wakeOp

/-- The meaning of RELEASE. -/
def execRelease (s : State) : Result := .next s.releaseOp

/-- The meaning of ACK. -/
def execAck (phase : Level) (s : State) : Result := .next (s.ackOp phase)

end Sys2Proof.Machine
end

