-- ==== Sys2Proof/Machine/Outcomes.lean ====
section
/-! DEFINITION. The outcomes of a run, taken as the operations that reach them: OUT.NONE, OUT.SUCCESS, OUT.TIMEOUT,
OUT.CHECKSUM (spec/30_encoding.md R79, spec/60_exceptions.md R161, R162).  The table gives each as the pattern
`done ++ err` that the ports show afterwards; the operation is what brings the ports there, at the tick where the spec
brings it about (log entry 7). -/

namespace Sys2Proof.Machine

/-- OUT.TIMEOUT (R161): Timeout is raised where a measurement sees its `TIMEOUT_TICKS`-th sample. -/
def State.outTimeoutOp (s : State) : State := if s.timeoutNow then s.raise .timeout else s

/-- OUT.CHECKSUM (R162): ChecksumMismatch is raised in VALIDATE when the sum differs. -/
def State.outChecksumOp (s : State) : State :=
  if s.st = .validate ∧ s.checksumOk = false then s.raise .checksumMismatch else s

/-- OUT.SUCCESS (R79, spec/43 R141): the run ends with Success in VALIDATE when the sum matches. -/
def State.outSuccessOp (s : State) : State :=
  if s.st = .validate ∧ s.checksumOk = true then s.succeed else s

/-- The meaning of OUT.NONE (R79): there is no outcome to report, after reset or while busy; nothing is written. -/
def execOutNone (s : State) : Result := .next s

/-- The meaning of OUT.SUCCESS. -/
def execOutSuccess (s : State) : Result := .next s.outSuccessOp

/-- The meaning of OUT.TIMEOUT. -/
def execOutTimeout (s : State) : Result := .next s.outTimeoutOp

/-- The meaning of OUT.CHECKSUM. -/
def execOutChecksum (s : State) : Result := .next s.outChecksumOp

end Sys2Proof.Machine
end

