-- ==== Sys2Proof/Machine/Pulse.lean ====
section
/-! DEFINITION. The pulse-width discriminator: PULSE.L, PULSE.H, RDBIT, SHIFT
(spec/42_pulse_discriminator.md).  A micro-operation writes only at a tick that selects it (log entry 5). -/

namespace Sys2Proof.Machine

/-- PULSE.L (R121), in ACK_LOW or, for a data bit, BIT_LOW. -/
def State.pulseLowOp (data : Bool) (s : State) : State :=
  if s.st = St.measure data low then s.lowTick (St.measure data high) else s

/-- PULSE.H (R122), in ACK_HIGH or, for a data bit, BIT_HIGH, where the ending tick holds SHIFT and the bit loop. -/
def State.pulseHighOp (data : Bool) (s : State) : State :=
  if s.st = St.measure data high then
    if data then s.bitHighTick else s.ackHighTick
  else s

/-- RDBIT (R125): BIT_LOW is PULSE.L, BIT_HIGH is PULSE.H; the comparison is kept. -/
def State.rdbitOp (phase : Level) (s : State) : State :=
  if s.st = St.measure true phase then
    if phase then s.bitHighTick else s.lowTick .bitHigh
  else s

/-- SHIFT alone (R127): the write of the decoded bit into the frame, at the tick in BIT_HIGH at which the line is
sampled low.  What else that tick does is the bit loop's (R128, log entry 22). -/
def State.shiftOp (s : State) : State :=
  if s.st = .bitHigh ∧ s.sample = low then s.shiftIn else s

/-- The meaning of PULSE.L. -/
def execPulseL (data : Bool) (s : State) : Result := .next (s.pulseLowOp data)

/-- The meaning of PULSE.H. -/
def execPulseH (data : Bool) (s : State) : Result := .next (s.pulseHighOp data)

/-- The meaning of RDBIT. -/
def execRdbit (phase : Level) (s : State) : Result := .next (s.rdbitOp phase)

/-- The meaning of SHIFT. -/
def execShift (s : State) : Result := .next s.shiftOp

end Sys2Proof.Machine
end

