-- ==== Sys2Proof/Machine/Rest.lean ====
section
/-! DEFINITION. The resting states: REST.IDLE, REST.SUCCESS, REST.FAILED (spec/10_state.md R24).  In each the block does
nothing but accept MEASURE when `start` is 1 (R34, spec/40_commands.md R102, R104). -/

namespace Sys2Proof.Machine

/-- The tick of a resting state `x`: MEASURE is accepted or nothing changes. -/
def State.restOp (x : St) (s : State) : State :=
  if s.st = x ∧ s.inp.start = true then s.accept else s

/-- The meaning of REST.IDLE. -/
def execRestIdle (s : State) : Result := .next (s.restOp .idle)

/-- The meaning of REST.SUCCESS: the result is held (decision D25). -/
def execRestSuccess (s : State) : Result := .next (s.restOp .success)

/-- The meaning of REST.FAILED: the failure kind is held in `ERR` (R169). -/
def execRestFailed (s : State) : Result := .next (s.restOp .failed)

end Sys2Proof.Machine
end

