-- ==== Sys2Proof/Machine/Validate.lean ====
section
/-! DEFINITION. The checksum validator and the value extraction: CSUM, XHUM, XTEMP (spec/43_checksum_extract.md).  The
three run in the one tick of VALIDATE (R141), one after the other: a mismatch raises the failure and the other two,
"executed only when CSUM passed", then write nothing (log entry 6). -/

namespace Sys2Proof.Machine

/-- CSUM (R140): a mismatch raises ChecksumMismatch; a match writes nothing. -/
def State.csumOp (s : State) : State :=
  if s.st = .validate ∧ s.checksumOk = false then s.raise .checksumMismatch else s

/-- XHUM (R142): `HUM <- F[0] × 10 + F[1]`, in `W_VAL` bits, when the checksum matches. -/
def State.xhumOp (s : State) : State :=
  if s.st = .validate ∧ s.checksumOk = true then { s with hum := trunc s.cfg.wVal s.f.humidity } else s

/-- XTEMP (R143): `TEMP <- ±((F[2] & 0x7F) × 10 + F[3])`, in `W_VAL` bits, when the checksum matches. -/
def State.xtempOp (s : State) : State :=
  if s.st = .validate ∧ s.checksumOk = true then { s with temp := truncSigned s.cfg.wVal s.f.temperature } else s

/-- The meaning of CSUM. -/
def execCsum (s : State) : Result := .next s.csumOp

/-- The meaning of XHUM. -/
def execXhum (s : State) : Result := .next s.xhumOp

/-- The meaning of XTEMP. -/
def execXtemp (s : State) : Result := .next s.xtempOp

end Sys2Proof.Machine
end

