-- ==== Sys2Proof/Machine/Commands.lean ====
section
/-! DEFINITION. The host's commands NEW, MEASURE, NOP (spec/40_commands.md).  One command is read at every tick, so a
command's meaning is a whole tick: in a busy state MEASURE and NOP leave the run to proceed by the transition table of
spec/10_state.md R34 (R103, R104). -/

namespace Sys2Proof.Machine

/-- The tick of VALIDATE: CSUM, XHUM, XTEMP and the end with Success, in this order (spec/43 R141; spec/40 R101 steps 4
and 5). -/
def State.validateTick (s : State) : State := s.csumOp.xhumOp.xtempOp.outSuccessOp

/-- The state's own transition (R34): the operation its code selects.  A resting state has none but the acceptance of
MEASURE. -/
def State.ownTick (s : State) : State :=
  match s.st with
  | .idle | .success | .failed => s
  | .wake => s.wakeOp
  | .release => s.releaseOp
  | .ackLow => s.ackOp low
  | .ackHigh => s.ackOp high
  | .bitLow => s.rdbitOp low
  | .bitHigh => s.rdbitOp high
  | .validate => s.validateTick

/-- MEASURE (R102, R103): accepted in a resting state, ignored in a busy one. -/
def State.measureOp (s : State) : State := if s.st.resting then s.accept else s.ownTick

/-- The meaning of NEW (R100), whatever `start` is. -/
def execNew (_start : Bool) (s : State) : Result := .next s.resetRegisters

/-- The meaning of MEASURE. -/
def execMeasure (s : State) : Result := .next s.measureOp

/-- The meaning of NOP (R104). -/
def execNop (s : State) : Result := .next s.ownTick

end Sys2Proof.Machine
end

