-- ==== Sys2Proof/Machine/Formatting.lean ====
section
/-! DEFINITION. FMT.H and FMT.T (spec/44_formatting.md R150 to R153): pure functions of their operand; they read no state of
the block, write none and take no tick.  The text stands in the model's own field `text` (log entry 10). -/

namespace Sys2Proof.Machine

/-- The meaning of FMT.H (R151). -/
def execFmtH (v : Value) (s : State) : Result := .next { s with text := renderHum v }

/-- The meaning of FMT.T (R152). -/
def execFmtT (v : Value) (s : State) : Result := .next { s with text := renderTemp v }

end Sys2Proof.Machine
end

