-- ==== Sys2Proof/Machine/Symbols.lean ====
section
/-! DEFINITION. What arrives on the line, taken as operations: SYM.ZERO, SYM.ONE, SYM.ACK, SYM.TIMEOUT, FRAME
(spec/30_encoding.md R73 to R75, R83).  The line carries the samples of the waveform, one per tick, and the block makes
its own tick on each, with no command given (log entry 8).  A symbol's high phase is ended by the sample after it, which
belongs to what follows (R73), so the bit of a symbol enters the frame at the first sample of the next. -/

namespace Sys2Proof.Machine

/-- One tick with a given level on the line and no command. -/
def State.lineTick (l : Level) (s : State) : State := (s.withInput ⟨false, false, some l⟩).ownTick

/-- The ticks of a waveform. -/
def State.receive : List Level → State → State
  | [], s => s
  | l :: ls, s => State.receive ls (s.lineTick l)

/-- The meaning of SYM.ZERO (R74): `hi ≤ lo`, bit 0. -/
def execSymZero (lo hi : Nat) (s : State) : Result := .next (s.receive (symbolWave lo hi))

/-- The meaning of SYM.ONE (R74): `hi > lo`, bit 1. -/
def execSymOne (lo hi : Nat) (s : State) : Result := .next (s.receive (symbolWave lo hi))

/-- The meaning of SYM.ACK (R74): the acknowledgement. -/
def execSymAck (lo hi : Nat) (s : State) : Result := .next (s.receive (symbolWave lo hi))

/-- The meaning of SYM.TIMEOUT (R83). -/
def execSymTimeout (level : Level) (n : Nat) (s : State) : Result := .next (s.receive (runOf level n))

/-- The meaning of FRAME (R75): forty symbols, with the widths of the pseudo-operations `Z` and `O` (R88, log entry
9). -/
def execFrame (h g : Byte) (sg : Bool) (t : BitVec 7) (f c : Byte) (s : State) : Result :=
  let fr := Frame.ofFields h g sg t f c
  .next (s.receive (frameWave fr.b0 fr.b1 fr.b2 fr.b3 fr.b4))

end Sys2Proof.Machine
end

