-- ==== Sys2Proof/Machine/Dispatch.lean ====
section
/-! DEFINITION. The dispatch: one arm per constructor of Instr. -/

namespace Sys2Proof.Machine

def exec (i : Instr) (s : State) : Host.Outcome State Fault Refusal :=
  match i with
  | .new start => Sys2Proof.Machine.execNew start s
  | .measure => Sys2Proof.Machine.execMeasure s
  | .nop => Sys2Proof.Machine.execNop s
  | .wake => Sys2Proof.Machine.execWake s
  | .release => Sys2Proof.Machine.execRelease s
  | .ack phase => Sys2Proof.Machine.execAck phase s
  | .pulseL data => Sys2Proof.Machine.execPulseL data s
  | .pulseH data => Sys2Proof.Machine.execPulseH data s
  | .rdbit phase => Sys2Proof.Machine.execRdbit phase s
  | .shift => Sys2Proof.Machine.execShift s
  | .csum => Sys2Proof.Machine.execCsum s
  | .xhum => Sys2Proof.Machine.execXhum s
  | .xtemp => Sys2Proof.Machine.execXtemp s
  | .fmtH v => Sys2Proof.Machine.execFmtH v s
  | .fmtT v => Sys2Proof.Machine.execFmtT v s
  | .restIdle => Sys2Proof.Machine.execRestIdle s
  | .restSuccess => Sys2Proof.Machine.execRestSuccess s
  | .restFailed => Sys2Proof.Machine.execRestFailed s
  | .symZero lo hi => Sys2Proof.Machine.execSymZero lo hi s
  | .symOne lo hi => Sys2Proof.Machine.execSymOne lo hi s
  | .symAck lo hi => Sys2Proof.Machine.execSymAck lo hi s
  | .symTimeout level n => Sys2Proof.Machine.execSymTimeout level n s
  | .frame h g sg t f c => Sys2Proof.Machine.execFrame h g sg t f c s
  | .outNone => Sys2Proof.Machine.execOutNone s
  | .outSuccess => Sys2Proof.Machine.execOutSuccess s
  | .outTimeout => Sys2Proof.Machine.execOutTimeout s
  | .outChecksum => Sys2Proof.Machine.execOutChecksum s

end Sys2Proof.Machine
end

