-- ==== Sys2Proof/Machine/Step.lean ====
section
/-! DEFINITION. One step: a tick (spec/00_scope.md R11). -/

namespace Sys2Proof.Machine

/-- One tick: the input comes to the ports, the command word `rst ++ start` is decoded and its meaning runs.  A
configuration outside spec/00_scope.md R8 is refused (spec/60_exceptions.md R179). -/
def step (s : State) : Host.Outcome State Fault Refusal :=
  if s.cfg.ok then exec (decodeCmd s.present.inp.cmd) s.present else .refused .configuration

/-- `s` with a word of the opcode table placed so that the next step runs it (log entry 13). -/
def State.withFetchWord (s : State) (nbits w : Nat) : State :=
  match decodeTableWord nbits w with
  | some i => s.place i
  | none => s

end Sys2Proof.Machine
end

