-- ==== Sys2Proof/Machine/Duration.lean ====
section
/-! DEFINITION. The duration level: MEASURE as the source states it, an algorithm over measured durations of a stream of
samples (spec/00_scope.md R12, spec/40_commands.md R101, spec/42_pulse_discriminator.md R120).  It says nothing of ticks;
that the block computes the same is a statement about both. -/

namespace Sys2Proof.Machine

/-- How a measurement ends: with a duration and the sample that ended it, or with the sample that raised Timeout. -/
inductive PulseEnd where
  | measured (duration pos : Nat)
  | timeout (pos : Nat)
  deriving DecidableEq, Repr

/-- The loop of `Pulse(level)` (R120), the count at `n` and the next sample at `pos`.  The loop counts up to
`TIMEOUT_TICKS`, so a fuel of that size is never used up. -/
def pulseLoop (limit : Nat) (level : Level) (σ : Nat → Level) : (fuel n pos : Nat) → PulseEnd
  | 0, _, pos => .timeout pos
  | k + 1, n, pos =>
    if σ pos ≠ level then .measured n pos
    else if n + 1 = limit then .timeout pos
    else pulseLoop limit level σ k (n + 1) (pos + 1)

/-- `Pulse(level)` from sample `pos` (R120). -/
def pulse (limit : Nat) (level : Level) (σ : Nat → Level) (pos : Nat) : PulseEnd :=
  pulseLoop limit level σ limit 0 pos

/-- How the bits of a run end: Timeout at a sample, with the frame as far as it was filled, or all bits read, the last
high phase ended by a sample. -/
inductive RunEnd where
  | timeout (f : Frame) (sample : Nat)
  | complete (f : Frame) (sample : Nat)
  deriving DecidableEq, Repr

/-- One bit-read cycle at the duration level: `lo <- Pulse(0); hi <- Pulse(1)` (R112, R125), given to `use`. -/
def readCycle (limit : Nat) (σ : Nat → Level) (pos : Nat) (f : Frame) (use : (lo hi pos : Nat) → RunEnd) : RunEnd :=
  match pulse limit low σ pos with
  | .timeout j => .timeout f j
  | .measured lo pos₁ =>
    match pulse limit high σ pos₁ with
    | .timeout j => .timeout f j
    | .measured hi pos₂ => use lo hi pos₂

/-- Step 2 of MEASURE (R101): the bits from position `p` on, `left` of them. -/
def readBits (limit : Nat) (σ : Nat → Level) : (left p pos : Nat) → Frame → RunEnd
  | 0, _, pos, f => .complete f pos
  | k + 1, p, pos, f =>
    readCycle limit σ pos f fun lo hi pos' => readBits limit σ k (p + 1) pos' (f.shiftBit p (decide (lo < hi)))

/-- Steps 1 to 3 of MEASURE on the samples after the release (R101): the acknowledgement, its comparison discarded,
then forty bits. -/
def measureRun (limit : Nat) (σ : Nat → Level) : RunEnd :=
  readCycle limit σ 0 Frame.zero fun _ _ pos => readBits limit σ 40 0 pos Frame.zero

/-- The Raw Frame at the end of a run. -/
def RunEnd.frame : RunEnd → Frame
  | .timeout f _ => f
  | .complete f _ => f

/-- Steps 4 and 5 of MEASURE (R101): the outcome. -/
def RunEnd.measurement : RunEnd → Measurement
  | .timeout _ _ => .failed .timeout
  | .complete f _ =>
    if f.sum = f.csum then .success f.temperature f.humidity else .failed .checksumMismatch

/-- How many ticks after the tick of sample 0 the run ends: `j + 1` with Timeout at sample `j`, `N + 2` without
(spec/70_reset_and_hazards.md R210). -/
def RunEnd.ticks : RunEnd → Nat
  | .timeout _ j => j + 1
  | .complete _ n => n + 2

end Sys2Proof.Machine
end

