-- ==== Sys2Proof/Safety.lean ====
section
/-! DEFINITION. What claims are stated in: the invariant of the block (spec/10_state.md R39), runs of the machine over given
inputs, and the premises a claim may put on the host and on the line. -/

namespace Sys2Proof.Machine

/-- The invariants of R39, for the state's own parameters (999 is `TIMEOUT_TICKS − 1`), with what makes them inductive: in
the handshake the frame is still clear and the bit position 0, and a measurement that was entered from another has counted
the sample that ended that one (R26). -/
structure Inv (s : State) : Prop where
  /-- The parameters meet R8. -/
  config : s.cfg.ok = true
  /-- `IDX ≤ 39`. -/
  idx : s.idx ≤ 39
  /-- `CNT ≤ TIMEOUT_TICKS − 1`. -/
  cnt : s.cnt < s.cfg.timeoutTicks
  /-- `LO ≤ TIMEOUT_TICKS − 1`. -/
  lo : s.lo < s.cfg.timeoutTicks
  /-- `DLY ≤ WAKE_TICKS − 1` in WAKE. -/
  dlyWake : s.st = .wake → s.dly < s.cfg.wakeTicks
  /-- `DLY ≤ RELEASE_TICKS − 1` in RELEASE. -/
  dlyRelease : s.st = .release → s.dly < s.cfg.releaseTicks
  /-- `DLY = 0` in every other state. -/
  dlyElse : s.st ≠ .wake → s.st ≠ .release → s.dly = 0
  /-- `ERR ≠ 0` exactly when `ST = FAILED`. -/
  err : s.err ≠ .none ↔ s.st = .failed
  /-- `ST ≠ SUCCESS` implies `TEMP = 0 ∧ HUM = 0`. -/
  values : s.st ≠ .success → s.temp = 0 ∧ s.hum = 0
  /-- `|TEMP| ≤ 1525`. -/
  tempRange : s.temp.natAbs ≤ 1525
  /-- `HUM ≤ 2805`. -/
  humRange : s.hum ≤ 2805
  /-- In SUCCESS the checksum matches and the values are those of the frame. -/
  success : s.st = .success → s.f.sum = s.f.csum ∧ s.temp = s.f.temperature ∧ s.hum = s.f.humidity
  /-- In BIT_LOW and BIT_HIGH the bytes after the one being filled are 0. -/
  later : s.st.data = true → s.st.measuring = true → ∀ j, s.idx / 8 < j → s.f.get j = 0#8
  /-- In BIT_LOW and BIT_HIGH the byte being filled has had exactly `IDX mod 8` shifts. -/
  filling : s.st.data = true → s.st.measuring = true →
    (s.f.get (s.idx / 8)).toNat < 2 ^ (s.idx % 8)
  /-- In the handshake the frame is clear and the bit position 0. -/
  handshake : s.st = .wake ∨ s.st = .release ∨ s.st = .ackLow ∨ s.st = .ackHigh →
    s.f = Frame.zero ∧ s.idx = 0
  /-- A measurement entered from another has counted a sample. -/
  counted : s.st = .ackHigh ∨ s.st = .bitLow ∨ s.st = .bitHigh → 1 ≤ s.cnt

/-- The machine run over given inputs, one tick on each, from a state. -/
def runOn (s : State) (is : List Input) : Result :=
  Host.Core.run Sys2Proof.core is.length { s with inputs := is }

/-- PREMISE ON THE HOST: it does not reset the block (spec/40_commands.md R105). -/
def NoReset (is : List Input) : Prop := ∀ i ∈ is, i.rst = false

/-- PREMISE ON THE LINE: it shows the stream `σ`, sample by sample, for `n` ticks; the host's `start` is anything and it
does not reset the block (spec/20_memory.md R68, spec/40_commands.md R103). -/
def samplesOf (start : Nat → Bool) (σ : Nat → Level) (n : Nat) : List Input :=
  (List.range n).map fun j => ⟨false, start j, some (σ j)⟩

/-- The inputs of a whole run: MEASURE on one tick, the ticks of the handshake (anything but reset), the samples. -/
def measureInputs (line : Option Level) (handshake : List Input) (samples : List Input) : List Input :=
  ⟨false, true, line⟩ :: handshake ++ samples

/-- Inputs that put a waveform on the line and give no command. -/
def waveInputs (w : List Level) : List Input := w.map fun l => ⟨false, false, some l⟩

end Sys2Proof.Machine
end

