-- ==== Sys2Proof/Certificates/Slice0/Obligations.lean ====
section
/-! DEFINITION. The statements for the provers.  A comment before a group says which files of spec/ it follows; each
docstring names the rules.  `{ s with … }` on the right of an equation says the frame as well: every field not named is
unchanged, in every state. -/

open Sys2Proof Sys2Proof.Machine

/-! ## The machine (spec/00, spec/10, spec/60, spec/70) -/

/-- R38: after reset every register has the value of its table, and so the ports read as it says. -/
def Obligations.ResetLeavesEveryRegisterAtItsValue : Prop :=
  State.reset.registers = ⟨.idle, 0, 0, 0, 0, ⟨0#8, 0#8, 0#8, 0#8, 0#8⟩, .none, 0, 0⟩ ∧
  State.reset.outputs = ⟨false, false, false, 0#2, 0, 0⟩

/-- R190, R100: at any tick with `rst = 1`, whatever the state and the other inputs, the next state is the reset state. -/
def Obligations.ResetInputOverridesEverything : Prop :=
  ∀ (s : State) (i : Input) (rest : List Input), s.cfg.ok = true → s.inputs = i :: rest → i.rst = true →
    ∃ t, step s = .next t ∧ t.registers = State.reset.registers ∧ t.cfg = s.cfg ∧ t.inputs = rest

/-- R11, R71: a tick takes the next input (past the end of the list no command and a free line: the model's choice, log
entry 3), decodes its command word and runs that command's meaning. -/
def Obligations.StepRunsTheDecodedCommand : Prop :=
  (∀ (s : State) (i : Instr) (l : List Instr), s.cfg.ok = true →
    decode s.cfg (.cmd s.present.inp.cmd) = .ok (i :: l) → step s = exec i s.present ∧ l = []) ∧
  (∀ (s : State) (j : Input) (js : List Input), s.inputs = j :: js →
    s.present = { s with inp := j, inputs := js, tick := s.tick + 1 }) ∧
  (∀ s : State, s.inputs = [] → s.present = { s with inp := ⟨false, false, none⟩, tick := s.tick + 1 })

/-- R179, R68: a step is total on every input; a configuration outside R8 is refused.  THE MODEL'S CHOICES in it: which widths
count as large enough for R8 (`Config.ok`: log entry 2, DEDUCED), and that the parameters are a field of the state which
a step leaves alone (log entry 1, DESIGN CHOICE). -/
def Obligations.StepIsTotalOrRefusesTheConfiguration : Prop :=
  ∀ s : State,
    (s.cfg.ok = true → ∃ t, step s = .next t ∧ t.cfg = s.cfg) ∧
    (s.cfg.ok = false → step s = .refused .configuration)

/-- R34: the complete transition table, row by row, at a tick with `rst = 0`, with the failure kind it names beside FAILED. -/
def Obligations.SequencerFollowsTheTransitionTable : Prop :=
  ∀ s : State, s.cfg.ok = true → s.present.inp.rst = false →
    ∃ t, step s = .next t ∧
      (t.st = .failed → s.st ≠ .failed → t.err = if s.st = .validate then .checksumMismatch else .timeout) ∧
      match s.st with
      | .idle | .success | .failed => t.st = if s.present.inp.start = true then .wake else s.st
      | .wake => t.st = if s.dly + 1 = s.cfg.wakeTicks then .release else .wake
      | .release => t.st = if s.dly + 1 = s.cfg.releaseTicks then .ackLow else .release
      | .ackLow =>
        t.st = if s.present.sample = high then .ackHigh
          else if s.cnt + 1 = s.cfg.timeoutTicks then .failed else .ackLow
      | .ackHigh =>
        t.st = (if s.present.sample = low then .bitLow
          else if s.cnt + 1 = s.cfg.timeoutTicks then .failed else .ackHigh) ∧
        (t.st = .bitLow → t.idx = 0)
      | .bitLow =>
        t.st = if s.present.sample = high then .bitHigh
          else if s.cnt + 1 = s.cfg.timeoutTicks then .failed else .bitLow
      | .bitHigh =>
        t.st = (if s.present.sample = low then (if s.idx = 39 then .validate else .bitLow)
          else if s.cnt + 1 = s.cfg.timeoutTicks then .failed else .bitHigh) ∧
        (t.st = .bitLow → s.idx < 39 → t.idx = s.idx + 1)
      | .validate => t.st = if s.f.b0 + s.f.b1 + s.f.b2 + s.f.b3 = s.f.b4 then .success else .failed

/-- R82: in a busy state other than VALIDATE, every row that the state code selects has the tick's whole effect: ACK or
RDBIT and the PULSE it is made of are the same tick. -/
def Obligations.EveryRowTheStateSelectsIsTheTick : Prop :=
  ∀ (s : State) (l : List Instr) (i : Instr), s.busy = true → s.st ≠ .validate →
    decode s.cfg (.st s.st.code) = .ok l → i ∈ l → exec i s = exec .nop s

/-- The model's choice (log entry 5): a micro-operation or an outcome at a tick whose state does not select it
writes nothing. -/
def Obligations.UnselectedOperationsWriteNothing : Prop :=
  ∀ (s : State) (b : Bool),
    (s.st ≠ .wake → exec .wake s = .next s) ∧
    (s.st ≠ .release → exec .release s = .next s) ∧
    (s.st ≠ St.measure false b → exec (.ack b) s = .next s) ∧
    (s.st ≠ St.measure b low → exec (.pulseL b) s = .next s) ∧
    (s.st ≠ St.measure b high → exec (.pulseH b) s = .next s) ∧
    (s.st ≠ St.measure true b → exec (.rdbit b) s = .next s) ∧
    (¬(s.st = .bitHigh ∧ s.sample = low) → exec .shift s = .next s) ∧
    (s.st ≠ .validate → exec .csum s = .next s ∧ exec .xhum s = .next s ∧ exec .xtemp s = .next s ∧
      exec .outChecksum s = .next s ∧ exec .outSuccess s = .next s) ∧
    (s.st.measuring = false → exec .outTimeout s = .next s)

/-! ## Commands (spec/40) -/

/-- R100: NEW, whatever the state and whatever `start`. -/
def Obligations.NewClearsEveryRegister : Prop :=
  ∀ (s : State) (b : Bool),
    exec (.new b) s = .next { s with
      st := .idle, idx := 0, dly := 0, cnt := 0, lo := 0, f := ⟨0#8, 0#8, 0#8, 0#8, 0#8⟩
      err := .none, temp := 0, hum := 0 }

/-- R102: MEASURE in IDLE, SUCCESS or FAILED is accepted, from each alike, and the ports of the next tick are as the rule
says; a step with `start = 1` and `rst = 0` does it. -/
def Obligations.MeasureIsAcceptedInARestingState : Prop :=
  ∀ s : State, s.st = .idle ∨ s.st = .success ∨ s.st = .failed →
    exec .measure s = .next { s with
      st := .wake, dly := 0, cnt := 0, lo := 0, idx := 0, f := ⟨0#8, 0#8, 0#8, 0#8, 0#8⟩
      err := .none, temp := 0, hum := 0 } ∧
    ∀ (i : Input) (rest : List Input), s.cfg.ok = true → s.inputs = i :: rest → i.rst = false → i.start = true →
      ∃ t, step s = .next t ∧
        t.registers = ⟨.wake, 0, 0, 0, 0, ⟨0#8, 0#8, 0#8, 0#8, 0#8⟩, .none, 0, 0⟩ ∧
        t.outputs = ⟨true, true, false, 0#2, 0, 0⟩

/-- R103: in a busy state `start` has no effect whatever: the tick is the one the state makes without it. -/
def Obligations.MeasureWhileBusyIsIgnored : Prop :=
  ∀ (s : State) (b : Bool), s.busy = true →
    ∃ t, exec .measure s = .next t ∧ exec .nop s = .next t ∧
      exec .nop { s with inp := { s.inp with start := b } } =
        .next { t with inp := { s.inp with start := b } }

/-- R104: in IDLE, SUCCESS and FAILED nothing changes, for any level of the line; a step without a command keeps every
register. -/
def Obligations.NopInARestingStateChangesNothing : Prop :=
  ∀ s : State, s.st = .idle ∨ s.st = .success ∨ s.st = .failed →
    exec .nop s = .next s ∧
    ∀ (i : Input) (rest : List Input), s.cfg.ok = true → s.inputs = i :: rest → i.rst = false → i.start = false →
      ∃ t, step s = .next t ∧ t.registers = s.registers

/-! ## Handshake (spec/41) -/

/-- R110: one tick of WAKE, with no regard to the line or `start`.  In every state, legal or not, the sum is cut to the width of
`DLY` (log entry 19, the model's). -/
def Obligations.WakeCountsTheWakePulse : Prop :=
  ∀ s : State, s.st = .wake →
    exec .wake s = .next (if s.dly + 1 = s.cfg.wakeTicks then { s with st := .release, dly := 0 }
      else { s with dly := trunc s.cfg.wDly (s.dly + 1) })

/-- R111: one tick of RELEASE.  In every state, legal or not, the sum is cut to the width of `DLY` (log entry 19, the model's). -/
def Obligations.ReleaseCountsTheWait : Prop :=
  ∀ s : State, s.st = .release →
    exec .release s = .next
      (if s.dly + 1 = s.cfg.releaseTicks then { s with st := .ackLow, dly := 0, cnt := 0 }
       else { s with dly := trunc s.cfg.wDly (s.dly + 1) })

/-- R112, R121, R122, R124: one tick of ACK in each of its phases.  In every state, legal or not, the sum is cut to the width of
`CNT` (log entry 19, the model's). -/
def Obligations.AckMeasuresAndDiscards : Prop :=
  (∀ s : State, s.st = .ackLow →
    exec (.ack low) s = .next
      (if s.sample = high then { s with lo := s.cnt, cnt := 1, st := .ackHigh }
       else if s.cnt + 1 = s.cfg.timeoutTicks then { s with st := .failed, err := .timeout }
       else { s with cnt := trunc s.cfg.wCnt (s.cnt + 1) })) ∧
  (∀ s : State, s.st = .ackHigh →
    exec (.ack high) s = .next
      (if s.sample = low then { s with cnt := 1, idx := 0, st := .bitLow }
       else if s.cnt + 1 = s.cfg.timeoutTicks then { s with st := .failed, err := .timeout }
       else { s with cnt := trunc s.cfg.wCnt (s.cnt + 1) }))

/-- R113: the handshake in ticks counted from the acceptance: WAKE for `WAKE_TICKS` ticks, RELEASE for `RELEASE_TICKS`,
then ACK_LOW with nothing counted, whatever the line shows and whatever `start` is. -/
def Obligations.HandshakeKeepsItsTimeline : Prop :=
  ∀ (s : State) (i : Input) (is : List Input), s.cfg.ok = true → s.st.resting = true →
    i.rst = false → i.start = true → NoReset is →
    (∀ n, n < s.cfg.wakeTicks → n ≤ is.length →
      ∃ t, runOn s (i :: is.take n) = .next t ∧ t.st = .wake ∧ t.dly = n ∧ t.driveLow = true) ∧
    (∀ n, n < s.cfg.releaseTicks → s.cfg.wakeTicks + n ≤ is.length →
      ∃ t, runOn s (i :: is.take (s.cfg.wakeTicks + n)) = .next t ∧
        t.st = .release ∧ t.dly = n ∧ t.driveLow = false) ∧
    (s.cfg.wakeTicks + s.cfg.releaseTicks ≤ is.length →
      ∃ t, runOn s (i :: is.take (s.cfg.wakeTicks + s.cfg.releaseTicks)) = .next t ∧
        t.st = .ackLow ∧ t.dly = 0 ∧ t.cnt = 0)

/-- R72, R31: the port `drive_low` shows the handshake waveform tick by tick after the acceptance, and WAKE, the only state
that drives the line, is entered from a resting state alone, by `start`. -/
def Obligations.DriveLowShowsTheHandshakeWaveform : Prop :=
  (∀ (s : State) (i : Input) (is : List Input) (n : Nat), s.cfg.ok = true → s.st.resting = true →
    i.rst = false → i.start = true → NoReset is → n ≤ is.length →
    n < s.cfg.wakeTicks + s.cfg.releaseTicks →
    ∃ t, runOn s (i :: is.take n) = .next t ∧ (handshakeWave s.cfg)[n]? = some t.driveLow) ∧
  (∀ s t : State, step s = .next t → t.driveLow = true →
    s.driveLow = true ∨ (s.st.resting = true ∧ s.present.inp.start = true))

/-! ## Pulses (spec/42) -/

/-- R121, R123, R124: one tick of PULSE.L, of the acknowledgement or of a data bit, under R8 and with a count below the limit
(R39). -/
def Obligations.PulseLowMeasuresTheLowPhase : Prop :=
  ∀ (s : State) (data : Bool), s.cfg.ok = true → s.cnt < s.cfg.timeoutTicks →
    s.st = (if data then .bitLow else .ackLow) →
    exec (.pulseL data) s = .next
      (if s.sample = high then
        { s with lo := s.cnt, cnt := 1, st := (if data then .bitHigh else .ackHigh) }
       else if s.cnt + 1 = s.cfg.timeoutTicks then { s with st := .failed, err := .timeout }
       else { s with cnt := s.cnt + 1 })

/-- R122, R126, R127, R128, R124: one tick of PULSE.H in BIT_HIGH, with the decision, the shift and the bit loop at its end;
and in ACK_HIGH; under R8, with a count below the limit and a bit position of the frame (R39). -/
def Obligations.PulseHighMeasuresTheHighPhase : Prop :=
  ∀ s : State, s.cfg.ok = true → s.cnt < s.cfg.timeoutTicks → s.idx ≤ 39 →
    (s.st = .bitHigh →
      exec (.pulseH true) s = .next
        (if s.sample = low then
          (if s.idx = 39 then
            { s with f := s.f.shiftBit s.idx (decide (s.lo < s.cnt)), st := .validate }
           else
            { s with f := s.f.shiftBit s.idx (decide (s.lo < s.cnt)), idx := s.idx + 1, cnt := 1, st := .bitLow })
         else if s.cnt + 1 = s.cfg.timeoutTicks then { s with st := .failed, err := .timeout }
         else { s with cnt := s.cnt + 1 })) ∧
    (s.st = .ackHigh →
      exec (.pulseH false) s = .next
        (if s.sample = low then { s with cnt := 1, idx := 0, st := .bitLow }
         else if s.cnt + 1 = s.cfg.timeoutTicks then { s with st := .failed, err := .timeout }
         else { s with cnt := s.cnt + 1 }))

/-- R125: one tick of RDBIT in each of its phases.  In every state, legal or not, the sums are cut to the widths of `CNT` and
`IDX` (log entry 19, the model's). -/
def Obligations.RdbitMeasuresBothPhases : Prop :=
  (∀ s : State, s.st = .bitLow →
    exec (.rdbit low) s = .next
      (if s.sample = high then { s with lo := s.cnt, cnt := 1, st := .bitHigh }
       else if s.cnt + 1 = s.cfg.timeoutTicks then { s with st := .failed, err := .timeout }
       else { s with cnt := trunc s.cfg.wCnt (s.cnt + 1) })) ∧
  (∀ s : State, s.st = .bitHigh →
    exec (.rdbit high) s = .next
      (if s.sample = low then
        (if s.idx = 39 then
          { s with f := s.f.shiftBit s.idx (decide (s.lo < s.cnt)), st := .validate }
         else
          { s with f := s.f.shiftBit s.idx (decide (s.lo < s.cnt))
                   idx := trunc s.cfg.wIdx (s.idx + 1), cnt := 1, st := .bitLow })
       else if s.cnt + 1 = s.cfg.timeoutTicks then { s with st := .failed, err := .timeout }
       else { s with cnt := trunc s.cfg.wCnt (s.cnt + 1) }))

/-- R127, R126: at the tick in BIT_HIGH with the line low, SHIFT moves byte `IDX div 8` left by one, its old bit 7 is lost,
`b = (CNT > LO)` enters at bit 0, and the other bytes and every other register are untouched; the tick as a whole leaves
the frame as SHIFT does.  R127 gives the write of the byte; that SHIFT taken alone writes nothing else, `ST` included, is THE
MODEL'S READING (log entry 22, DEDUCED). -/
def Obligations.ShiftPutsTheBitIntoItsByte : Prop :=
  ∀ s : State, s.st = .bitHigh → s.sample = low → s.idx ≤ 39 →
    ∃ t u, exec .shift s = .next t ∧ t = { s with f := t.f } ∧
      t.f.get (s.idx / 8) =
        (s.f.get (s.idx / 8) <<< 1) ||| (if s.lo < s.cnt then 1#8 else 0#8) ∧
      (∀ j, j ≠ s.idx / 8 → t.f.get j = s.f.get j) ∧
      exec .nop s = .next u ∧ u.f = t.f

/-- R124: the tick that sees the `TIMEOUT_TICKS`-th sample of the measured level, in any of the four measuring states, and
it alone, raises Timeout; nothing else is written. -/
def Obligations.TimeoutAtExactlyTheLimit : Prop :=
  ∀ s : State, s.st.measuring = true →
    ∃ t, exec .nop s = .next t ∧
      (t.st = .failed ↔ s.sample = s.st.level ∧ s.cnt + 1 = s.cfg.timeoutTicks) ∧
      (t.st = .failed → t = { s with st := .failed, err := .timeout })

/-- R120: `Pulse(level)` answers a duration `n` exactly when the `n < TIMEOUT_TICKS` samples from `pos` on show the level and
the next does not, and Timeout at sample `pos + TIMEOUT_TICKS − 1` exactly when `TIMEOUT_TICKS` samples show it. -/
def Obligations.PulseMeasuresARunOfSamples : Prop :=
  ∀ (limit : Nat) (level : Level) (σ : Nat → Level) (pos : Nat), 1 ≤ limit →
    (∀ n p, pulse limit level σ pos = .measured n p ↔
      n < limit ∧ p = pos + n ∧ (∀ k, k < n → σ (pos + k) = level) ∧ σ (pos + n) ≠ level) ∧
    (∀ p, pulse limit level σ pos = .timeout p ↔
      p = pos + limit - 1 ∧ ∀ k, k < limit → σ (pos + k) = level)

/-! ## Checksum and values (spec/43) -/

/-- R140, R162: CSUM raises ChecksumMismatch when the wrapping sum differs from byte 4.  That CSUM taken alone writes nothing on
a match, and so leaves `ST` in VALIDATE, is THE MODEL'S CHOICE (log entry 6). -/
def Obligations.CsumRaisesOnAMismatch : Prop :=
  ∀ s : State, s.st = .validate →
    exec .csum s = .next
      (if (s.f.b0.toNat + s.f.b1.toNat + s.f.b2.toNat + s.f.b3.toNat) % 256 = s.f.b4.toNat then s
       else { s with st := .failed, err := .checksumMismatch })

/-- R142: XHUM, on a valid frame: `HUM <- F[0] × 10 + F[1]`, without overflow under R8; on an invalid one it is not executed.
That XHUM taken alone writes `HUM` only, and so leaves `ST` in VALIDATE, and nothing on a mismatch, is THE MODEL'S CHOICE (log
entry 6); so is cutting to `W_VAL` bits in a configuration outside R8 (log entry 19). -/
def Obligations.XhumExtractsTheHumidity : Prop :=
  ∀ s : State, s.st = .validate →
    ∃ t, exec .xhum s = .next t ∧ t = { s with hum := t.hum } ∧
      (s.f.b0 + s.f.b1 + s.f.b2 + s.f.b3 = s.f.b4 →
        t.hum = trunc s.cfg.wVal (s.f.b0.toNat * 10 + s.f.b1.toNat) ∧
        (s.cfg.ok = true → t.hum = s.f.b0.toNat * 10 + s.f.b1.toNat)) ∧
      (s.f.b0 + s.f.b1 + s.f.b2 + s.f.b3 ≠ s.f.b4 → t.hum = s.hum)

/-- R143: XTEMP, on a valid frame: the magnitude `(F[2] & 0x7F) × 10 + F[3]`, negated when bit 7 of `F[2]` is set, without
overflow under R8.  That XTEMP taken alone writes `TEMP` only, and so leaves `ST` in VALIDATE, and nothing on a mismatch, is THE
MODEL'S CHOICE (log entry 6). -/
def Obligations.XtempExtractsTheTemperature : Prop :=
  ∀ s : State, s.st = .validate →
    ∃ t, exec .xtemp s = .next t ∧ t = { s with temp := t.temp } ∧
      (s.f.b0 + s.f.b1 + s.f.b2 + s.f.b3 = s.f.b4 → s.cfg.ok = true →
        t.temp = (if s.f.b2.toNat < 128 then 1 else -1) *
          (((s.f.b2.toNat % 128) * 10 + s.f.b3.toNat : Nat) : Int)) ∧
      (s.f.b0 + s.f.b1 + s.f.b2 + s.f.b3 ≠ s.f.b4 → t.temp = s.temp)

/-- R141: the one tick of VALIDATE, with or without `start`, under R8: all the writes land together. -/
def Obligations.ValidateTakesOneTick : Prop :=
  ∀ s : State, s.cfg.ok = true → s.st = .validate →
    exec .nop s = .next
      (if s.f.b0 + s.f.b1 + s.f.b2 + s.f.b3 = s.f.b4 then
        { s with
          hum := s.f.b0.toNat * 10 + s.f.b1.toNat
          temp :=
            (if s.f.b2.getLsbD 7 then -(((s.f.b2 &&& 0x7F#8).toNat * 10 + s.f.b3.toNat : Nat) : Int)
             else (((s.f.b2 &&& 0x7F#8).toNat * 10 + s.f.b3.toNat : Nat) : Int))
          st := .success }
       else { s with err := .checksumMismatch, st := .failed }) ∧
    exec .measure s = exec .nop s

/-- R146: the ranges of the two values; every value in them comes from some frame, and not from one alone; a frame that obeys
the sensor's conventions gives at most 1009 and 999. -/
def Obligations.ValuesFillTheirRanges : Prop :=
  (∀ f : Frame, f.humidity ≤ 2805 ∧ -1525 ≤ f.temperature ∧ f.temperature ≤ 1525) ∧
  (∀ v : Nat, v ≤ 2805 → ∃ f : Frame, f.humidity = v) ∧
  (∀ v : Int, -1525 ≤ v → v ≤ 1525 → ∃ f : Frame, f.temperature = v) ∧
  (∃ f g : Frame, f.b0 ≠ g.b0 ∧ f.humidity = 492 ∧ g.humidity = 492) ∧
  (∀ f : Frame, f.humFrac.toNat ≤ 9 → f.tFrac.toNat ≤ 9 → f.humInt.toNat ≤ 100 → f.tMag.toNat ≤ 99 →
    f.humidity ≤ 1009 ∧ f.temperature.natAbs ≤ 999)

/-! ## Rendering (spec/44) -/

/-- R151: FMT.H. -/
def Obligations.FmtHRendersTheHumidity : Prop :=
  ∀ (s : State) (v : Value),
    exec (.fmtH v) s = .next { s with text := dec (v.toNat / 10) ++ ['.'] ++ dec (v.toNat % 10) ++ ['%'] }

/-- R152: FMT.T: the sign applies to the whole value. -/
def Obligations.FmtTRendersTheTemperature : Prop :=
  ∀ (s : State) (v : Value),
    exec (.fmtT v) s = .next { s with
      text := (if v.toInt < 0 then ['-'] else []) ++
        dec (v.toInt.natAbs / 10) ++ ['.'] ++ dec (v.toInt.natAbs % 10) ++ ['°', 'C'] }

/-- R151: `dec(n)` is the decimal numeral of `n`: digits only, no leading zero, `dec(0) = "0"`, and it denotes `n`. -/
def Obligations.DecIsTheDecimalNumeral : Prop :=
  dec 0 = ['0'] ∧
  ∀ n : Nat, (∀ ch ∈ dec n, '0' ≤ ch ∧ ch ≤ '9') ∧ (n ≠ 0 → (dec n).head? ≠ some '0') ∧ dec n ≠ [] ∧
    (dec n).foldl (fun a ch => a * 10 + (ch.toNat - 48)) 0 = n

/-! ## Resting states and outcomes (spec/10, spec/30, spec/60) -/

/-- R24, R34: a resting state accepts MEASURE when `start` is 1 and keeps everything otherwise; where it is not the state, its
row writes nothing (log entry 5). -/
def Obligations.RestingStatesHoldAndAccept : Prop :=
  ∀ s : State,
    exec .restIdle s = .next (if s.st = .idle ∧ s.inp.start = true then s.accept else s) ∧
    exec .restSuccess s = .next (if s.st = .success ∧ s.inp.start = true then s.accept else s) ∧
    exec .restFailed s = .next (if s.st = .failed ∧ s.inp.start = true then s.accept else s)

/-- R161, R162, R167, R79, R141, as the model takes the outcome rows (log entry 7): each raises its outcome at the tick where
the spec raises it, writes what the spec says it writes, and the ports then show its pattern. -/
def Obligations.OutcomesAreReachedAsTheSpecRaisesThem : Prop :=
  ∀ s : State,
    exec .outNone s = .next s ∧
    (s.st.measuring = true ∧ s.sample = s.st.level ∧ s.cnt + 1 = s.cfg.timeoutTicks →
      exec .outTimeout s = .next { s with st := .failed, err := .timeout } ∧
      ({ s with st := .failed, err := .timeout } : State).outWord = 0b101#3) ∧
    (s.st = .validate ∧ s.f.b0 + s.f.b1 + s.f.b2 + s.f.b3 ≠ s.f.b4 →
      exec .outChecksum s = .next { s with st := .failed, err := .checksumMismatch } ∧
      ({ s with st := .failed, err := .checksumMismatch } : State).outWord = 0b110#3) ∧
    (s.st = .validate ∧ s.f.b0 + s.f.b1 + s.f.b2 + s.f.b3 = s.f.b4 →
      exec .outSuccess s = .next { s with st := .success } ∧
      (s.err = .none → ({ s with st := .success } : State).outWord = 0b100#3))

/-! ## What arrives on the line (spec/30, spec/42) -/

/-- R112, R73, R129, on the model's SYM.ACK (log entry 8): from the entry of ACK_LOW, a symbol of any legal widths measures
exactly its widths. -/
def Obligations.AcknowledgementSymbolIsMeasured : Prop :=
  ∀ (s : State) (lo hi : Nat), s.cfg.ok = true → s.st = .ackLow → s.cnt = 0 →
    (Instr.symAck lo hi).wellFormed s.cfg = true →
    exec (.symAck lo hi) s = .next { s with
      st := .ackHigh, lo := lo, cnt := hi
      inp := ⟨false, false, some high⟩, tick := s.tick + (lo + hi) }

/-- R73, R74, R123, R129, on the model's SYM.ZERO and SYM.ONE (log entry 8): a data symbol (its `lo` is at least 1, R73), after the
acknowledgement or after another bit, measures exactly its widths, its first sample ends the phase before it, and the bit it
leaves to be decided is 0 for ZERO and 1 for ONE. -/
def Obligations.DataSymbolIsMeasuredAndDecoded : Prop :=
  ∀ (s : State) (lo hi : Nat) (b : Bool), s.cfg.ok = true → 1 ≤ lo →
    (if b then Instr.symOne lo hi else Instr.symZero lo hi).wellFormed s.cfg = true →
    (s.st = .ackHigh →
      exec (if b then .symOne lo hi else .symZero lo hi) s = .next { s with
        idx := 0, st := .bitHigh, lo := lo, cnt := hi
        inp := ⟨false, false, some high⟩, tick := s.tick + (lo + hi) }) ∧
    (s.st = .bitHigh → s.idx < 39 →
      exec (if b then .symOne lo hi else .symZero lo hi) s = .next { s with
        f := s.f.shiftBit s.idx s.decodedBit, idx := s.idx + 1
        st := .bitHigh, lo := lo, cnt := hi
        inp := ⟨false, false, some high⟩, tick := s.tick + (lo + hi) }) ∧
    (∀ t : State, t.lo = lo → t.cnt = hi → t.decodedBit = b)

/-- R83, R124, on the model's SYM.TIMEOUT (log entry 8): `TIMEOUT_TICKS` or more samples at the level being measured raise
Timeout, whatever was counted before, and what the line shows after that is not looked at. -/
def Obligations.TooLongAPhaseRaisesTimeout : Prop :=
  ∀ (s : State) (n : Nat), s.cfg.ok = true → s.st.measuring = true → s.cnt < s.cfg.timeoutTicks →
    (Instr.symTimeout s.st.level n).wellFormed s.cfg = true →
    exec (.symTimeout s.st.level n) s = .next { s with
      st := .failed, err := .timeout, cnt := s.cfg.timeoutTicks - 1
      inp := ⟨false, false, some s.st.level⟩, tick := s.tick + n }

/-- R75, R76, R77, R128, on the model's FRAME (log entries 8 and 9): after the acknowledgement, the forty symbols and one low
sample (R131) leave the frame's fields in the Raw Frame, at VALIDATE, whatever the Raw Frame held before. -/
def Obligations.FrameFillsTheRawFrame : Prop :=
  ∀ (s : State) (h g : Byte) (sg : Bool) (t : BitVec 7) (f c : Byte), s.cfg.ok = true → s.st = .ackHigh →
    70 < s.cfg.timeoutTicks →
    ∃ u v, exec (.frame h g sg t f c) s = .next u ∧
      exec .nop (u.withInput ⟨false, false, some low⟩) = .next v ∧
      v.st = .validate ∧ v.idx = 39 ∧ v.f = ⟨h, g, BitVec.ofBool sg ++ t, f, c⟩ ∧
      v.dly = s.dly ∧ v.err = s.err ∧ v.temp = s.temp ∧ v.hum = s.hum ∧ v.cfg = s.cfg

/-- R104, R50, on the model's symbols (log entry 8): in a resting state the line is not sampled, so a waveform changes no
register; and whatever the state, a waveform takes one tick per sample. -/
def Obligations.WaveformsTakeOneTickPerSample : Prop :=
  ∀ (s : State) (lo hi n : Nat) (level : Level) (h g : Byte) (sg : Bool) (t : BitVec 7) (f c : Byte) (i : Instr),
    i ∈ [Instr.symZero lo hi, .symOne lo hi, .symAck lo hi, .symTimeout level n, .frame h g sg t f c] →
    ∃ u, exec i s = .next u ∧ u.cfg = s.cfg ∧ u.inputs = s.inputs ∧ u.text = s.text ∧
      (s.st.resting = true → u.registers = s.registers) ∧
      (i ∈ [Instr.symZero lo hi, .symOne lo hi, .symAck lo hi] → u.tick = s.tick + (lo + hi)) ∧
      (i = .symTimeout level n → u.tick = s.tick + n)

/-! ## Encodings (spec/30, opcode_table.json) -/

/-- R71, R80, R79: words written out from the table decode to their rows.  The ORDER inside an answered list is THE MODEL'S
CHOICE (log entry 12). -/
def Obligations.TableWordsDecodeToTheirRows : Prop :=
  decode Config.standard (.cmd 0b10#2) = .ok [.new false] ∧
  decode Config.standard (.cmd 0b11#2) = .ok [.new true] ∧
  decode Config.standard (.cmd 0b01#2) = .ok [.measure] ∧
  decode Config.standard (.cmd 0b00#2) = .ok [.nop] ∧
  decode Config.standard (.st 0b0001#4) = .ok [.wake] ∧
  decode Config.standard (.st 0b0101#4) = .ok [.pulseH false, .ack high] ∧
  decode Config.standard (.st 0b0011#4) = .ok [.csum, .xhum, .xtemp] ∧
  decode Config.standard (.st 0b1010#4) = .error (.unusedStateCode 0b1010#4) ∧
  decode Config.standard (.stLine 0b01110#5) = .ok [.shift] ∧
  decode Config.standard (.out 0b110#3) = .ok [.outChecksum] ∧
  decode Config.standard (.out 0b111#3) = .error (.outcomeNeverOccurs 0b111#3) ∧
  decode Config.standard (.frame 0x300217054E#40) = .ok [.frame 0x30#8 0x02#8 false 0x17#7 0x05#8 0x4E#8]

/-- R71, R79, R80, R82: commands, SHIFT and outcomes decode to themselves, and every row that a state code selects is among
the rows its own code decodes to, at every value of its operands. -/
def Obligations.WordsOfTheTableRoundTrip : Prop :=
  ∀ (c : Config) (b : Bool),
    (∀ i ∈ [Instr.new b, .measure, .nop, .shift, .outNone, .outSuccess, .outTimeout, .outChecksum, .wake, .release,
        .restIdle, .restSuccess, .restFailed], decode c (encode i) = .ok [i]) ∧
    (∀ i ∈ [Instr.ack b, .pulseL b, .pulseH b, .rdbit b, .csum, .xhum, .xtemp],
        ∃ l, decode c (encode i) = .ok l ∧ i ∈ l)

/-- R73, R74, R75, R83: every well-formed symbol and every frame decodes, from its waveform or its forty bits, to itself.  That
SYM.ONE with `lo = 0` is among them, decoded as a data symbol, is THE MODEL'S CHOICE (log entry 24); so is that SYM.TIMEOUT is
encoded in that place (log entry 25). -/
def Obligations.WaveformsDecodeToWhatTheyEncode : Prop :=
  ∀ (c : Config) (lo hi n : Nat) (level : Level) (h g : Byte) (sg : Bool) (t : BitVec 7) (f k : Byte), c.ok = true →
    ∀ i ∈ [Instr.symZero lo hi, .symOne lo hi, .symAck lo hi, .symTimeout level n, .frame h g sg t f k],
      i.wellFormed c = true → decode c (encode i) = .ok [i]

/-- On THE MODEL'S OWN decoder of the format TXT (log entry 23: the spec gives the rendering, R151, R152, and no parser): a
rendered text decodes to the value it renders, so no two values render alike. -/
def Obligations.RenderedTextDecodesToItsValue : Prop :=
  ∀ (c : Config) (v : Value),
    decode c (encode (.fmtH v)) = .ok [.fmtH v] ∧ decode c (encode (.fmtT v)) = .ok [.fmtT v]

/-- R24, R80: the ten codes name the ten states, the other six none; bit 2 says measuring, then bit 0 the level and bit 1 a
data bit; bit 3 says a finished run. -/
def Obligations.StateCodesSayWhatTheyMean : Prop :=
  (∀ x : St, St.ofCode x.code = some x) ∧
  (∀ w : BitVec 4, 10 ≤ w.toNat → St.ofCode w = none) ∧
  (∀ x : St, x.code.getLsbD 2 = true ↔ x = .ackLow ∨ x = .ackHigh ∨ x = .bitLow ∨ x = .bitHigh) ∧
  (∀ data level : Bool, (St.measure data level).code.getLsbD 2 = true ∧
    (St.measure data level).code.getLsbD 0 = level ∧ (St.measure data level).code.getLsbD 1 = data) ∧
  (∀ x : St, x.code.getLsbD 3 = true ↔ x = .success ∨ x = .failed)

/-! ## Whole-machine rules -/

/-- R39: the invariants hold at reset. -/
def Obligations.InvariantsHoldAtReset : Prop := Inv State.reset

/-- R39: every step keeps the invariants, whatever the inputs and the line. -/
def Obligations.EveryStepKeepsTheInvariants : Prop :=
  ∀ s t : State, Inv s → step s = .next t → Inv t

/-- R41, R31, R79: the ports show one of the four rows of the table of R41, the values read 0 except on Success, `busy` and
`done` are never both 1, and the status pattern decodes to the row of the outcome. -/
def Obligations.PortsShowOneWholeOutcome : Prop :=
  ∀ s : State, Inv s →
    ¬(s.outputs.busy = true ∧ s.outputs.done = true) ∧
    (s.outputs.busy = false ∧ s.outputs.done = false ↔ s.st = .idle) ∧
    match s.outputs.measurement with
    | .none => s.outputs.done = false ∧ s.outputs.err = 0b00#2 ∧ s.outputs.temp = 0 ∧ s.outputs.hum = 0 ∧
        decode s.cfg (.out s.outWord) = .ok [.outNone]
    | .success temp hum => s.outputs.done = true ∧ s.outputs.err = 0b00#2 ∧ s.st = .success ∧
        temp = s.f.temperature ∧ hum = s.f.humidity ∧ decode s.cfg (.out s.outWord) = .ok [.outSuccess]
    | .failed .timeout => s.outputs.done = true ∧ s.outputs.err = 0b01#2 ∧ s.outputs.temp = 0 ∧
        s.outputs.hum = 0 ∧ decode s.cfg (.out s.outWord) = .ok [.outTimeout]
    | .failed .checksumMismatch => s.outputs.done = true ∧ s.outputs.err = 0b10#2 ∧ s.outputs.temp = 0 ∧
        s.outputs.hum = 0 ∧ decode s.cfg (.out s.outWord) = .ok [.outChecksum]

/-- R167, R160 to R162: whenever a step enters FAILED, it wrote `ST` and `ERR` and no other register; Timeout from a measuring
state whose count was one short, ChecksumMismatch from VALIDATE; the line is released, and the values read 0 (the invariants of
R39 say that they were). -/
def Obligations.RaisingAFailureWritesOnlyStAndErr : Prop :=
  ∀ s t : State, step s = .next t → s.st ≠ .failed → t.st = .failed →
    t.registers = { s.registers with st := .failed, err := t.err } ∧
    ((t.err = .timeout ∧ s.st.measuring = true ∧ s.cnt + 1 = s.cfg.timeoutTicks ∧
        s.present.sample = s.st.level) ∨
     (t.err = .checksumMismatch ∧ s.st = .validate ∧ s.f.b0 + s.f.b1 + s.f.b2 + s.f.b3 ≠ s.f.b4)) ∧
    t.done = true ∧ t.busy = false ∧ t.driveLow = false ∧ t.outputs.err = t.err.code ∧
    (Inv s → t.outputs.temp = 0 ∧ t.outputs.hum = 0)

/-- R169, R170, R171: FAILED is left only by an accepted MEASURE or by `rst`, either of which clears everything; otherwise it
stays, with no retry. -/
def Obligations.FailedIsLeftOnlyByMeasureOrReset : Prop :=
  ∀ s t : State, step s = .next t → s.st = .failed →
    (s.present.inp.rst = true ∧ t.registers = State.reset.registers) ∨
    (s.present.inp.rst = false ∧ s.present.inp.start = true ∧
      t.registers = { State.reset.registers with st := .wake }) ∨
    (s.present.inp.rst = false ∧ s.present.inp.start = false ∧ t.registers = s.registers)

/-- R22, R23: `TEMP` and `HUM` are written only on a successful validation, and cleared only at acceptance and reset. -/
def Obligations.ValueRegistersHaveNoOtherWriter : Prop :=
  ∀ s t : State, step s = .next t → t.temp ≠ s.temp ∨ t.hum ≠ s.hum →
    (s.st = .validate ∧ t.st = .success ∧ s.f.sum = s.f.csum ∧
      t.temp = s.f.temperature ∧ t.hum = s.f.humidity) ∨
    (t.temp = 0 ∧ t.hum = 0 ∧
      (s.present.inp.rst = true ∨ (s.st.resting = true ∧ s.present.inp.start = true)))

/-- R21: the Raw Frame is written only by SHIFT, one byte of it, and cleared only at acceptance and reset. -/
def Obligations.RawFrameHasNoOtherWriter : Prop :=
  ∀ s t : State, step s = .next t → t.f ≠ s.f →
    (s.st = .bitHigh ∧ s.present.sample = low ∧ t.f = s.f.shiftBit s.idx (decide (s.lo < s.cnt))) ∨
    (t.f = ⟨0#8, 0#8, 0#8, 0#8, 0#8⟩ ∧
      (s.present.inp.rst = true ∨ (s.st.resting = true ∧ s.present.inp.start = true)))

/-- R50, R68: outside the four measuring states the level of the line changes nothing. -/
def Obligations.LineIsReadOnlyWhileMeasuring : Prop :=
  ∀ (s : State) (i : Input) (rest : List Input) (line : Option Level), s.cfg.ok = true → s.st.measuring = false →
    s.inputs = i :: rest →
    ∃ t u, step s = .next t ∧ step { s with inputs := { i with line := line } :: rest } = .next u ∧
      t.registers = u.registers

/-- R192, R169: nothing but the parameters survives the acceptance of a MEASURE: two runs from any two resting states, on the
same inputs, pass through the same registers. -/
def Obligations.ARunDependsOnNothingBeforeIt : Prop :=
  ∀ (s u : State) (i : Input) (is : List Input), s.cfg.ok = true → u.cfg = s.cfg →
    s.st.resting = true → u.st.resting = true → i.rst = false → i.start = true →
    (∀ j ∈ is, j.line ≠ none) →
    ∃ t v, runOn s (i :: is) = .next t ∧ runOn u (i :: is) = .next v ∧ t.registers = v.registers

/-- R211: every run ends, and at the latest after `longestRun` ticks (101961 with the standard parameters), whatever the line
shows and whatever `start` does, as long as the host does not reset the block. -/
def Obligations.EveryRunEndsInTime : Prop :=
  Config.standard.longestRun = 101961 ∧
  ∀ (s : State) (i : Input) (is : List Input), s.cfg.ok = true → s.st.resting = true →
    i.rst = false → i.start = true → NoReset is → s.cfg.longestRun ≤ is.length + 1 →
    ∃ n t, n + 1 ≤ s.cfg.longestRun ∧ runOn s (i :: is.take n) = .next t ∧ t.done = true

/-- R112 (c), (d), E7: on a line that never changes, high or low, the run ends with Timeout, without any bit decoded, at
`TIMEOUT_TICKS` ticks after sample 0 (`T0 + 21041`), and not before. -/
def Obligations.AStuckLineTimesOut : Prop :=
  ∀ (s : State) (line : Option Level) (hs : List Input) (start : Nat → Bool) (level : Level), s.cfg.ok = true →
    s.st.resting = true → hs.length = s.cfg.wakeTicks + s.cfg.releaseTicks → NoReset hs →
    (∃ t, runOn s (measureInputs line hs (samplesOf start (fun _ => level) s.cfg.timeoutTicks)) = .next t ∧
      t.registers = { State.reset.registers with
        st := .failed, err := .timeout, cnt := s.cfg.timeoutTicks - 1 }) ∧
    (∀ n, n < s.cfg.timeoutTicks →
      ∃ t, runOn s (measureInputs line hs (samplesOf start (fun _ => level) n)) = .next t ∧
        (t.st = .ackLow ∨ t.st = .ackHigh))

/-- R12, R210, R120, R101: the tick level agrees with the duration level: on every stream of samples the block ends its run with
the outcome and the Raw Frame of the source's algorithm, at the tick R210 gives, and is busy at every tick before. -/
def Obligations.TickLevelAgreesWithDurationLevel : Prop :=
  ∀ (s : State) (line : Option Level) (hs : List Input) (start : Nat → Bool) (σ : Nat → Level), s.cfg.ok = true →
    s.st.resting = true → hs.length = s.cfg.wakeTicks + s.cfg.releaseTicks → NoReset hs →
    (∃ t, runOn s (measureInputs line hs
        (samplesOf start σ (measureRun s.cfg.timeoutTicks σ).ticks)) = .next t ∧
      t.outputs.measurement = (measureRun s.cfg.timeoutTicks σ).measurement ∧
      t.f = (measureRun s.cfg.timeoutTicks σ).frame) ∧
    (∀ n, n < (measureRun s.cfg.timeoutTicks σ).ticks →
      ∃ t, runOn s (measureInputs line hs (samplesOf start σ n)) = .next t ∧ t.busy = true)

/-- R129, R76, R52, E10: from the acceptance, an acknowledgement and forty symbols of any legal widths and one more low sample
bring the block to VALIDATE, and the bit decoded at position `p` stands in byte `p div 8` at bit `7 − p mod 8`: 1 exactly when
the symbol's high phase was the longer. -/
def Obligations.FortySymbolsFillTheFrame : Prop :=
  ∀ (s : State) (line : Option Level) (hs : List Input) (a₀ a₁ : Nat) (ws : List (Nat × Nat)), s.cfg.ok = true →
    s.st.resting = true → hs.length = s.cfg.wakeTicks + s.cfg.releaseTicks → NoReset hs →
    a₀ < s.cfg.timeoutTicks → 1 ≤ a₁ → a₁ < s.cfg.timeoutTicks → ws.length = 40 →
    (∀ w ∈ ws, 1 ≤ w.1 ∧ w.1 < s.cfg.timeoutTicks ∧ 1 ≤ w.2 ∧ w.2 < s.cfg.timeoutTicks) →
    ∃ t, runOn s (measureInputs line hs (waveInputs
        (symbolWave a₀ a₁ ++ ws.flatMap (fun w => symbolWave w.1 w.2) ++ [low]))) = .next t ∧
      t.st = .validate ∧
      ∀ p w, ws[p]? = some w → (t.f.get (p / 8)).getLsbD (7 - p % 8) = decide (w.1 < w.2)

/-- R147: for all bytes `b0` to `b3`, the nominal trace of the frame with its checksum ends in SUCCESS with exactly that frame,
and the values are those of R142 and R143. -/
def Obligations.NominalTraceRoundTrips : Prop :=
  ∀ (s : State) (line last : Option Level) (hs : List Input) (b0 b1 b2 b3 : Byte), s.cfg.ok = true →
    s.st.resting = true → hs.length = s.cfg.wakeTicks + s.cfg.releaseTicks → NoReset hs →
    80 < s.cfg.timeoutTicks →
    ∃ t, runOn s (measureInputs line hs
        (waveInputs (ackWave ++ frameWave b0 b1 b2 b3 (checksumOf b0 b1 b2 b3) ++ [low]) ++
          [⟨false, false, last⟩])) = .next t ∧
      t.st = .success ∧ t.f = ⟨b0, b1, b2, b3, b0 + b1 + b2 + b3⟩ ∧
      t.outputs.measurement = .success t.f.temperature t.f.humidity

/-- R7, R8, R144, on the model's registers (numbers cut to their width when written, log entry 19): in every state that meets
the invariants each register fits its width, the ports' patterns denote the registers, and no addition, composition or
negation loses a bit. -/
def Obligations.EveryRegisterFitsItsWidth : Prop :=
  ∀ s : State, Inv s →
    s.idx < 2 ^ s.cfg.wIdx ∧ s.dly < 2 ^ s.cfg.wDly ∧ s.cnt < 2 ^ s.cfg.wCnt ∧ s.lo < 2 ^ s.cfg.wCnt ∧
    s.humPattern.toNat = s.hum ∧ s.tempPattern.toInt = s.temp ∧
    (s.st = .wake → s.dly + 1 ≠ s.cfg.wakeTicks → trunc s.cfg.wDly (s.dly + 1) = s.dly + 1) ∧
    (s.st = .release → s.dly + 1 ≠ s.cfg.releaseTicks → trunc s.cfg.wDly (s.dly + 1) = s.dly + 1) ∧
    (s.cnt + 1 ≠ s.cfg.timeoutTicks → trunc s.cfg.wCnt (s.cnt + 1) = s.cnt + 1) ∧
    (s.idx ≠ 39 → trunc s.cfg.wIdx (s.idx + 1) = s.idx + 1) ∧
    trunc s.cfg.wVal s.f.humidity = s.f.humidity ∧
    truncSigned s.cfg.wVal s.f.temperature = s.f.temperature

/-- On the model's SYM.ONE with `lo = 0` (log entries 8 and 24: R73 says that no data symbol has such a `lo`): THE MODEL'S
CHOICE is that its samples are what the line shows, so in a state that measures a high phase they only lengthen that phase,
and no bit is decided, until the count reaches the limit. -/
def Obligations.SymbolWithoutALowPhaseLengthensTheHighPhase : Prop :=
  ∀ (s : State) (hi : Nat), s.cfg.ok = true → s.st = .ackHigh ∨ s.st = .bitHigh →
    (Instr.symOne 0 hi).wellFormed s.cfg = true → s.cnt < s.cfg.timeoutTicks →
    exec (.symOne 0 hi) s = .next
      (if s.cnt + hi < s.cfg.timeoutTicks then
        { s with cnt := s.cnt + hi, inp := ⟨false, false, some high⟩, tick := s.tick + hi }
       else
        { s with
          st := .failed, err := .timeout, cnt := s.cfg.timeoutTicks - 1
          inp := ⟨false, false, some high⟩, tick := s.tick + hi })
end

