-- ==== Sys2Proof/Laws/Operands.lean ====
section
/-! SUPPORT. Laws of the operands and flags: the bytes of the Raw Frame, the sample, the state codes, the ranges of the
values and the widths. -/

namespace Sys2Proof.Machine

/-! ### The sample -/

@[simp] theorem State.sample_some (s : State) (l : Level) (h : s.inp.line = some l) : s.sample = l := by
  simp [State.sample, h]

/-- The sample depends on the ports and the tick's number alone. -/
theorem State.sample_congr (s t : State) (hi : s.inp = t.inp) (hk : s.tick = t.tick) : s.sample = t.sample := by
  simp [State.sample, hi, hk]

/-! ### The Raw Frame -/

/-- Reading the byte written gives the value written. -/
theorem Frame.get_set_same (f : Frame) (j : Nat) (v : Byte) (h : j < 5) : (f.set j v).get j = v := by
  match j, h with
  | 0, _ | 1, _ | 2, _ | 3, _ | 4, _ => rfl

/-- Writing a byte leaves every other byte alone. -/
theorem Frame.get_set_other (f : Frame) (j k : Nat) (v : Byte) (h : k ≠ j) : (f.set j v).get k = f.get k := by
  unfold Frame.set
  split <;> first | rfl | (unfold Frame.get; split <;> simp_all)

/-- A frame is its five bytes. -/
theorem Frame.ext_get (f g : Frame) (h : ∀ j, j < 5 → f.get j = g.get j) : f = g := by
  have h0 := h 0 (by decide)
  have h1 := h 1 (by decide)
  have h2 := h 2 (by decide)
  have h3 := h 3 (by decide)
  have h4 := h 4 (by decide)
  cases f; cases g
  simp_all [Frame.get]

/-- The byte that a shift fills. -/
theorem Frame.get_shiftBit_same (f : Frame) (p : Nat) (b : Bool) (h : p < 40) :
    (f.shiftBit p b).get (p / 8) = (f.get (p / 8) <<< 1) ||| (BitVec.ofBool b).setWidth 8 :=
  Frame.get_set_same f _ _ (by omega)

/-- A shift leaves every other byte alone. -/
theorem Frame.get_shiftBit_other (f : Frame) (p k : Nat) (b : Bool) (h : k ≠ p / 8) :
    (f.shiftBit p b).get k = f.get k :=
  Frame.get_set_other f _ _ _ h

@[simp] theorem Frame.get_zero (j : Nat) : Frame.zero.get j = 0#8 := by
  unfold Frame.get Frame.zero
  split <;> rfl

/-- The bits of a byte after a shift: the new one at bit 0, the others one place up (R127). -/
theorem shiftByte_getLsbD (v : Byte) (b : Bool) (i : Nat) :
    ((v <<< 1) ||| (BitVec.ofBool b).setWidth 8).getLsbD i =
      if i = 0 then b else decide (i < 8) && v.getLsbD (i - 1) := by
  cases i with
  | zero => cases b <;> simp
  | succ n => cases b <;> simp [BitVec.getLsbD_shiftLeft]

/-! ### The values -/

/-- `F[2] & 0x7F` is the byte without its bit 7 (R77). -/
theorem Frame.tMag_toNat (f : Frame) : f.tMag.toNat = f.b2.toNat % 128 := by
  have := Nat.and_two_pow_sub_one_eq_mod f.b2.toNat 7
  simpa [Frame.tMag] using this

theorem Frame.humidity_eq (f : Frame) : f.humidity = f.b0.toNat * 10 + f.b1.toNat := rfl

theorem Frame.magnitude_eq (f : Frame) : f.magnitude = f.b2.toNat % 128 * 10 + f.b3.toNat := by
  rw [Frame.magnitude, decimal, Frame.tMag_toNat, Frame.tFrac]

theorem Frame.humidity_le (f : Frame) : f.humidity ≤ 2805 := by
  have h0 := f.b0.isLt
  have h1 := f.b1.isLt
  rw [Frame.humidity_eq]
  omega

theorem Frame.magnitude_le (f : Frame) : f.magnitude ≤ 1525 := by
  have h3 := f.b3.isLt
  rw [Frame.magnitude_eq]
  omega

/-- The Temperature is the magnitude up to its sign (R143, R146). -/
theorem Frame.temperature_natAbs (f : Frame) : f.temperature.natAbs = f.magnitude := by
  unfold Frame.temperature
  split <;> simp

/-! ### Widths -/

/-- A value that fits is not cut. -/
theorem trunc_of_lt {n v : Nat} (h : v < 2 ^ n) : trunc n v = v := Nat.mod_eq_of_lt h

/-- What is written fits. -/
theorem trunc_lt (n v : Nat) : trunc n v < 2 ^ n := Nat.mod_lt _ (Nat.two_pow_pos n)

/-- A signed value whose magnitude stays below half the range is not cut. -/
theorem truncSigned_of_natAbs_lt {n : Nat} {v : Int} (h : 2 * v.natAbs < 2 ^ n) : truncSigned n v = v := by
  unfold truncSigned
  generalize 2 ^ n = m at h
  rw [Int.bmod_eq_of_le] <;> omega

/-- What a legal configuration is (R8), as inequalities. -/
theorem config_ok_bounds {c : Config} (h : c.ok = true) :
    2 ≤ c.timeoutTicks ∧ c.timeoutTicks < 2 ^ c.wCnt ∧ 1 ≤ c.wakeTicks ∧ c.wakeTicks ≤ 2 ^ c.wDly ∧
    1 ≤ c.releaseTicks ∧ c.releaseTicks ≤ 2 ^ c.wDly ∧ 40 ≤ 2 ^ c.wIdx ∧ 2805 < 2 ^ c.wVal := by
  simp [Config.ok] at h
  omega

/-- A width that holds 2805 holds twelve bits, and so the Temperature too (R22). -/
theorem config_wVal_bound {c : Config} (h : c.ok = true) : 4096 ≤ 2 ^ c.wVal := by
  have hv := (config_ok_bounds h).2.2.2.2.2.2.2
  have : 12 ≤ c.wVal := by
    by_contra hc
    have := Nat.pow_le_pow_right (n := 2) (by decide) (show c.wVal ≤ 11 by omega)
    omega
  exact Nat.pow_le_pow_right (n := 2) (by decide) this

/-- Under R8 the two results are written whole (R144). -/
theorem Frame.trunc_humidity {c : Config} (h : c.ok = true) (f : Frame) :
    trunc c.wVal f.humidity = f.humidity := by
  have := config_wVal_bound h
  have := f.humidity_le
  exact trunc_of_lt (by omega)

theorem Frame.truncSigned_temperature {c : Config} (h : c.ok = true) (f : Frame) :
    truncSigned c.wVal f.temperature = f.temperature := by
  have := config_wVal_bound h
  have := f.magnitude_le
  exact truncSigned_of_natAbs_lt (by rw [Frame.temperature_natAbs]; omega)

/-! ### The state codes -/

@[simp] theorem St.measure_level (data : Bool) (level : Level) : (St.measure data level).level = level := by
  cases data <;> cases level <;> rfl

@[simp] theorem St.measure_data (data : Bool) (level : Level) : (St.measure data level).data = data := by
  cases data <;> cases level <;> rfl

@[simp] theorem St.measure_measuring (data : Bool) (level : Level) : (St.measure data level).measuring = true := by
  cases data <;> cases level <;> rfl

theorem St.measuring_iff (x : St) : x.measuring = true ↔ x = .ackLow ∨ x = .ackHigh ∨ x = .bitLow ∨ x = .bitHigh := by
  cases x <;> decide

theorem St.resting_iff (x : St) : x.resting = true ↔ x = .idle ∨ x = .success ∨ x = .failed := by
  cases x <;> decide

/-- A state is busy exactly when it does not rest (R31). -/
theorem State.busy_eq (s : State) : s.busy = !s.st.resting := by
  unfold State.busy St.resting
  cases s.st <;> rfl

end Sys2Proof.Machine
end

