-- ==== Sys2Proof/Laws/State.lean ====
section
/-! SUPPORT. One lemma per field for each update of the state that does not branch, true by definition, so that no later
proof unfolds a record update. -/

namespace Sys2Proof.Machine

variable (s : State)

/-! ### raise -/

@[simp] theorem State.raise_cfg (k : Failure) : (State.raise k s).cfg = s.cfg := rfl
@[simp] theorem State.raise_st (k : Failure) : (State.raise k s).st = .failed := rfl
@[simp] theorem State.raise_idx (k : Failure) : (State.raise k s).idx = s.idx := rfl
@[simp] theorem State.raise_dly (k : Failure) : (State.raise k s).dly = s.dly := rfl
@[simp] theorem State.raise_cnt (k : Failure) : (State.raise k s).cnt = s.cnt := rfl
@[simp] theorem State.raise_lo (k : Failure) : (State.raise k s).lo = s.lo := rfl
@[simp] theorem State.raise_f (k : Failure) : (State.raise k s).f = s.f := rfl
@[simp] theorem State.raise_err (k : Failure) : (State.raise k s).err = k.err := rfl
@[simp] theorem State.raise_temp (k : Failure) : (State.raise k s).temp = s.temp := rfl
@[simp] theorem State.raise_hum (k : Failure) : (State.raise k s).hum = s.hum := rfl
@[simp] theorem State.raise_inp (k : Failure) : (State.raise k s).inp = s.inp := rfl
@[simp] theorem State.raise_inputs (k : Failure) : (State.raise k s).inputs = s.inputs := rfl
@[simp] theorem State.raise_tick (k : Failure) : (State.raise k s).tick = s.tick := rfl
@[simp] theorem State.raise_text (k : Failure) : (State.raise k s).text = s.text := rfl

/-! ### accept -/

@[simp] theorem State.accept_cfg : s.accept.cfg = s.cfg := rfl
@[simp] theorem State.accept_st : s.accept.st = .wake := rfl
@[simp] theorem State.accept_idx : s.accept.idx = 0 := rfl
@[simp] theorem State.accept_dly : s.accept.dly = 0 := rfl
@[simp] theorem State.accept_cnt : s.accept.cnt = 0 := rfl
@[simp] theorem State.accept_lo : s.accept.lo = 0 := rfl
@[simp] theorem State.accept_f : s.accept.f = Frame.zero := rfl
@[simp] theorem State.accept_err : s.accept.err = .none := rfl
@[simp] theorem State.accept_temp : s.accept.temp = 0 := rfl
@[simp] theorem State.accept_hum : s.accept.hum = 0 := rfl
@[simp] theorem State.accept_inp : s.accept.inp = s.inp := rfl
@[simp] theorem State.accept_inputs : s.accept.inputs = s.inputs := rfl
@[simp] theorem State.accept_tick : s.accept.tick = s.tick := rfl
@[simp] theorem State.accept_text : s.accept.text = s.text := rfl

/-! ### resetRegisters -/

@[simp] theorem State.resetRegisters_cfg : s.resetRegisters.cfg = s.cfg := rfl
@[simp] theorem State.resetRegisters_st : s.resetRegisters.st = .idle := rfl
@[simp] theorem State.resetRegisters_idx : s.resetRegisters.idx = 0 := rfl
@[simp] theorem State.resetRegisters_dly : s.resetRegisters.dly = 0 := rfl
@[simp] theorem State.resetRegisters_cnt : s.resetRegisters.cnt = 0 := rfl
@[simp] theorem State.resetRegisters_lo : s.resetRegisters.lo = 0 := rfl
@[simp] theorem State.resetRegisters_f : s.resetRegisters.f = Frame.zero := rfl
@[simp] theorem State.resetRegisters_err : s.resetRegisters.err = .none := rfl
@[simp] theorem State.resetRegisters_temp : s.resetRegisters.temp = 0 := rfl
@[simp] theorem State.resetRegisters_hum : s.resetRegisters.hum = 0 := rfl
@[simp] theorem State.resetRegisters_inp : s.resetRegisters.inp = s.inp := rfl
@[simp] theorem State.resetRegisters_inputs : s.resetRegisters.inputs = s.inputs := rfl
@[simp] theorem State.resetRegisters_tick : s.resetRegisters.tick = s.tick := rfl
@[simp] theorem State.resetRegisters_text : s.resetRegisters.text = s.text := rfl

/-! ### succeed -/

@[simp] theorem State.succeed_cfg : s.succeed.cfg = s.cfg := rfl
@[simp] theorem State.succeed_st : s.succeed.st = .success := rfl
@[simp] theorem State.succeed_idx : s.succeed.idx = s.idx := rfl
@[simp] theorem State.succeed_dly : s.succeed.dly = s.dly := rfl
@[simp] theorem State.succeed_cnt : s.succeed.cnt = s.cnt := rfl
@[simp] theorem State.succeed_lo : s.succeed.lo = s.lo := rfl
@[simp] theorem State.succeed_f : s.succeed.f = s.f := rfl
@[simp] theorem State.succeed_err : s.succeed.err = s.err := rfl
@[simp] theorem State.succeed_temp : s.succeed.temp = s.temp := rfl
@[simp] theorem State.succeed_hum : s.succeed.hum = s.hum := rfl
@[simp] theorem State.succeed_inp : s.succeed.inp = s.inp := rfl
@[simp] theorem State.succeed_inputs : s.succeed.inputs = s.inputs := rfl
@[simp] theorem State.succeed_tick : s.succeed.tick = s.tick := rfl
@[simp] theorem State.succeed_text : s.succeed.text = s.text := rfl

/-! ### withInput -/

@[simp] theorem State.withInput_cfg (i : Input) : (State.withInput i s).cfg = s.cfg := rfl
@[simp] theorem State.withInput_st (i : Input) : (State.withInput i s).st = s.st := rfl
@[simp] theorem State.withInput_idx (i : Input) : (State.withInput i s).idx = s.idx := rfl
@[simp] theorem State.withInput_dly (i : Input) : (State.withInput i s).dly = s.dly := rfl
@[simp] theorem State.withInput_cnt (i : Input) : (State.withInput i s).cnt = s.cnt := rfl
@[simp] theorem State.withInput_lo (i : Input) : (State.withInput i s).lo = s.lo := rfl
@[simp] theorem State.withInput_f (i : Input) : (State.withInput i s).f = s.f := rfl
@[simp] theorem State.withInput_err (i : Input) : (State.withInput i s).err = s.err := rfl
@[simp] theorem State.withInput_temp (i : Input) : (State.withInput i s).temp = s.temp := rfl
@[simp] theorem State.withInput_hum (i : Input) : (State.withInput i s).hum = s.hum := rfl
@[simp] theorem State.withInput_inp (i : Input) : (State.withInput i s).inp = i := rfl
@[simp] theorem State.withInput_inputs (i : Input) : (State.withInput i s).inputs = s.inputs := rfl
@[simp] theorem State.withInput_tick (i : Input) : (State.withInput i s).tick = s.tick + 1 := rfl
@[simp] theorem State.withInput_text (i : Input) : (State.withInput i s).text = s.text := rfl

/-! ### endLow -/

@[simp] theorem State.endLow_cfg (x : St) : (State.endLow x s).cfg = s.cfg := rfl
@[simp] theorem State.endLow_st (x : St) : (State.endLow x s).st = x := rfl
@[simp] theorem State.endLow_idx (x : St) : (State.endLow x s).idx = s.idx := rfl
@[simp] theorem State.endLow_dly (x : St) : (State.endLow x s).dly = s.dly := rfl
@[simp] theorem State.endLow_cnt (x : St) : (State.endLow x s).cnt = 1 := rfl
@[simp] theorem State.endLow_lo (x : St) : (State.endLow x s).lo = s.cnt := rfl
@[simp] theorem State.endLow_f (x : St) : (State.endLow x s).f = s.f := rfl
@[simp] theorem State.endLow_err (x : St) : (State.endLow x s).err = s.err := rfl
@[simp] theorem State.endLow_temp (x : St) : (State.endLow x s).temp = s.temp := rfl
@[simp] theorem State.endLow_hum (x : St) : (State.endLow x s).hum = s.hum := rfl
@[simp] theorem State.endLow_inp (x : St) : (State.endLow x s).inp = s.inp := rfl
@[simp] theorem State.endLow_inputs (x : St) : (State.endLow x s).inputs = s.inputs := rfl
@[simp] theorem State.endLow_tick (x : St) : (State.endLow x s).tick = s.tick := rfl
@[simp] theorem State.endLow_text (x : St) : (State.endLow x s).text = s.text := rfl

/-! ### endAck -/

@[simp] theorem State.endAck_cfg : s.endAck.cfg = s.cfg := rfl
@[simp] theorem State.endAck_st : s.endAck.st = .bitLow := rfl
@[simp] theorem State.endAck_idx : s.endAck.idx = 0 := rfl
@[simp] theorem State.endAck_dly : s.endAck.dly = s.dly := rfl
@[simp] theorem State.endAck_cnt : s.endAck.cnt = 1 := rfl
@[simp] theorem State.endAck_lo : s.endAck.lo = s.lo := rfl
@[simp] theorem State.endAck_f : s.endAck.f = s.f := rfl
@[simp] theorem State.endAck_err : s.endAck.err = s.err := rfl
@[simp] theorem State.endAck_temp : s.endAck.temp = s.temp := rfl
@[simp] theorem State.endAck_hum : s.endAck.hum = s.hum := rfl
@[simp] theorem State.endAck_inp : s.endAck.inp = s.inp := rfl
@[simp] theorem State.endAck_inputs : s.endAck.inputs = s.inputs := rfl
@[simp] theorem State.endAck_tick : s.endAck.tick = s.tick := rfl
@[simp] theorem State.endAck_text : s.endAck.text = s.text := rfl

/-! ### shiftIn -/

@[simp] theorem State.shiftIn_cfg : s.shiftIn.cfg = s.cfg := rfl
@[simp] theorem State.shiftIn_st : s.shiftIn.st = s.st := rfl
@[simp] theorem State.shiftIn_idx : s.shiftIn.idx = s.idx := rfl
@[simp] theorem State.shiftIn_dly : s.shiftIn.dly = s.dly := rfl
@[simp] theorem State.shiftIn_cnt : s.shiftIn.cnt = s.cnt := rfl
@[simp] theorem State.shiftIn_lo : s.shiftIn.lo = s.lo := rfl
@[simp] theorem State.shiftIn_f : s.shiftIn.f = s.f.shiftBit s.idx s.decodedBit := rfl
@[simp] theorem State.shiftIn_err : s.shiftIn.err = s.err := rfl
@[simp] theorem State.shiftIn_temp : s.shiftIn.temp = s.temp := rfl
@[simp] theorem State.shiftIn_hum : s.shiftIn.hum = s.hum := rfl
@[simp] theorem State.shiftIn_inp : s.shiftIn.inp = s.inp := rfl
@[simp] theorem State.shiftIn_inputs : s.shiftIn.inputs = s.inputs := rfl
@[simp] theorem State.shiftIn_tick : s.shiftIn.tick = s.tick := rfl
@[simp] theorem State.shiftIn_text : s.shiftIn.text = s.text := rfl

/-! ### Views -/

@[simp] theorem State.registers_mk :
    s.registers = ⟨s.st, s.idx, s.dly, s.cnt, s.lo, s.f, s.err, s.temp, s.hum⟩ := rfl

theorem State.registers_withInput (i : Input) : (s.withInput i).registers = s.registers := rfl

end Sys2Proof.Machine
end

