-- ==== Sys2Proof/Laws/Ops.lean ====
section
/-! SUPPORT. One lemma per shared operation that says everything it can do, and the operation each state selects. -/

namespace Sys2Proof.Machine

/-! ### Counting a sample -/

/-- A counted sample raises Timeout or adds one to the count (R124). -/
theorem State.countSample_cases (s : State) :
    (s.cnt + 1 = s.cfg.timeoutTicks ∧ s.countSample = s.raise .timeout) ∨
    (s.cnt + 1 ≠ s.cfg.timeoutTicks ∧ s.countSample = { s with cnt := trunc s.cfg.wCnt (s.cnt + 1) }) := by
  by_cases h : s.cnt + 1 = s.cfg.timeoutTicks <;> simp [State.countSample, State.lastSample, h]

/-- One more sample at the level, below the limit, is counted (cut to the width of `CNT`). -/
theorem State.countSample_below (s : State) (h : s.cnt + 1 ≠ s.cfg.timeoutTicks) :
    s.countSample = { s with cnt := trunc s.cfg.wCnt (s.cnt + 1) } := by
  simp [State.countSample, State.lastSample, h]

/-- The last sample raises Timeout. -/
theorem State.countSample_last (s : State) (h : s.cnt + 1 = s.cfg.timeoutTicks) :
    s.countSample = s.raise .timeout := by
  simp [State.countSample, State.lastSample, h]

/-! ### The bit loop -/

/-- The bit loop goes to VALIDATE after position 39 and to the next position before it (R128). -/
theorem State.nextBit_cases (s : State) :
    (s.idx = 39 ∧ s.nextBit = { s with st := .validate }) ∨
    (s.idx ≠ 39 ∧ s.nextBit = { s with idx := trunc s.cfg.wIdx (s.idx + 1), cnt := 1, st := .bitLow }) := by
  by_cases h : s.idx = 39 <;> simp [State.nextBit, h]

/-! ### The tick of each phase -/

theorem State.lowTick_high (next : St) (s : State) (h : s.sample = high) : s.lowTick next = s.endLow next := by
  simp [State.lowTick, h]

theorem State.lowTick_low (next : St) (s : State) (h : s.sample = low) : s.lowTick next = s.countSample := by
  simp [State.lowTick, h]

theorem State.ackHighTick_high (s : State) (h : s.sample = high) : s.ackHighTick = s.countSample := by
  simp [State.ackHighTick, h]

theorem State.ackHighTick_low (s : State) (h : s.sample = low) : s.ackHighTick = s.endAck := by
  simp [State.ackHighTick, h]

theorem State.bitHighTick_high (s : State) (h : s.sample = high) : s.bitHighTick = s.countSample := by
  simp [State.bitHighTick, h]

theorem State.bitHighTick_low (s : State) (h : s.sample = low) : s.bitHighTick = s.shiftIn.nextBit := by
  simp [State.bitHighTick, h]

/-! ### The state's own transition -/

theorem State.ownTick_resting (s : State) (h : s.st.resting = true) : s.ownTick = s := by
  unfold State.ownTick
  cases hs : s.st <;> simp_all [St.resting]

theorem State.ownTick_wake (s : State) (h : s.st = .wake) : s.ownTick = s.wakeTick := by
  simp [State.ownTick, State.wakeOp, h]

theorem State.ownTick_release (s : State) (h : s.st = .release) : s.ownTick = s.releaseTick := by
  simp [State.ownTick, State.releaseOp, h]

theorem State.ownTick_ackLow (s : State) (h : s.st = .ackLow) : s.ownTick = s.lowTick .ackHigh := by
  simp [State.ownTick, State.ackOp, St.measure, h]

theorem State.ownTick_ackHigh (s : State) (h : s.st = .ackHigh) : s.ownTick = s.ackHighTick := by
  simp [State.ownTick, State.ackOp, St.measure, h]

theorem State.ownTick_bitLow (s : State) (h : s.st = .bitLow) : s.ownTick = s.lowTick .bitHigh := by
  simp [State.ownTick, State.rdbitOp, St.measure, h]

theorem State.ownTick_bitHigh (s : State) (h : s.st = .bitHigh) : s.ownTick = s.bitHighTick := by
  simp [State.ownTick, State.rdbitOp, St.measure, h]

/-- VALIDATE with a matching checksum: the two values and SUCCESS, together (R141). -/
theorem State.ownTick_validate_match (s : State) (h : s.st = .validate) (hc : s.checksumOk = true) :
    s.ownTick = { s with hum := trunc s.cfg.wVal s.f.humidity, temp := truncSigned s.cfg.wVal s.f.temperature, st := .success } := by
  have hc' : s.f.sum = s.f.csum := by simpa [State.checksumOk] using hc
  simp [State.ownTick, State.validateTick, State.csumOp, State.xhumOp, State.xtempOp, State.outSuccessOp,
    State.succeed, State.checksumOk, h, hc']

/-- VALIDATE with a differing checksum: ChecksumMismatch and nothing else (R141). -/
theorem State.ownTick_validate_differ (s : State) (h : s.st = .validate) (hc : s.checksumOk = false) :
    s.ownTick = s.raise .checksumMismatch := by
  have hc' : s.f.sum ≠ s.f.csum := by simpa [State.checksumOk] using hc
  simp [State.ownTick, State.validateTick, State.csumOp, State.xhumOp, State.xtempOp, State.outSuccessOp,
    State.checksumOk, State.raise, h, hc']

/-- Whatever the state, its own transition writes none of the model's own fields and not the parameters. -/
theorem State.ownTick_frame (s : State) :
    s.ownTick.cfg = s.cfg ∧ s.ownTick.inp = s.inp ∧ s.ownTick.inputs = s.inputs ∧ s.ownTick.tick = s.tick ∧
    s.ownTick.text = s.text := by
  have count : ∀ u : State, u.countSample.cfg = u.cfg ∧ u.countSample.inp = u.inp ∧
      u.countSample.inputs = u.inputs ∧ u.countSample.tick = u.tick ∧ u.countSample.text = u.text := by
    intro u
    rcases u.countSample_cases with ⟨-, h⟩ | ⟨-, h⟩ <;> simp [h]
  have bit : ∀ u : State, u.nextBit.cfg = u.cfg ∧ u.nextBit.inp = u.inp ∧
      u.nextBit.inputs = u.inputs ∧ u.nextBit.tick = u.tick ∧ u.nextBit.text = u.text := by
    intro u
    rcases u.nextBit_cases with ⟨-, h⟩ | ⟨-, h⟩ <;> simp [h]
  cases hs : s.st with
  | idle | success | failed => simp [s.ownTick_resting (by simp [hs, St.resting])]
  | wake => rw [s.ownTick_wake hs]; unfold State.wakeTick; split <;> simp
  | release => rw [s.ownTick_release hs]; unfold State.releaseTick; split <;> simp
  | ackLow => rw [s.ownTick_ackLow hs]; unfold State.lowTick; split <;> simp [count]
  | ackHigh => rw [s.ownTick_ackHigh hs]; unfold State.ackHighTick; split <;> simp [count]
  | bitLow => rw [s.ownTick_bitLow hs]; unfold State.lowTick; split <;> simp [count]
  | bitHigh => rw [s.ownTick_bitHigh hs]; unfold State.bitHighTick; split <;> simp [count, bit]
  | validate =>
    cases hc : s.checksumOk
    · simp [s.ownTick_validate_differ hs hc]
    · simp [s.ownTick_validate_match hs hc]

@[simp] theorem State.ownTick_cfg (s : State) : s.ownTick.cfg = s.cfg := s.ownTick_frame.1
@[simp] theorem State.ownTick_inp (s : State) : s.ownTick.inp = s.inp := s.ownTick_frame.2.1
@[simp] theorem State.ownTick_inputs (s : State) : s.ownTick.inputs = s.inputs := s.ownTick_frame.2.2.1
@[simp] theorem State.ownTick_tick (s : State) : s.ownTick.tick = s.tick := s.ownTick_frame.2.2.2.1
@[simp] theorem State.ownTick_text (s : State) : s.ownTick.text = s.text := s.ownTick_frame.2.2.2.2

/-! ### Receiving a waveform -/

@[simp] theorem State.receive_nil (s : State) : s.receive [] = s := rfl

@[simp] theorem State.receive_cons (s : State) (l : Level) (ls : List Level) :
    s.receive (l :: ls) = (s.lineTick l).receive ls := rfl

/-- A waveform in two parts is received part by part. -/
theorem State.receive_append (s : State) (v w : List Level) : s.receive (v ++ w) = (s.receive v).receive w := by
  induction v generalizing s with
  | nil => rfl
  | cons l ls ih => exact ih _

/-- A waveform writes neither the parameters nor the inputs to come nor the text. -/
theorem State.receive_frame (s : State) (w : List Level) :
    (s.receive w).cfg = s.cfg ∧ (s.receive w).inputs = s.inputs ∧ (s.receive w).text = s.text ∧
    (s.receive w).tick = s.tick + w.length := by
  induction w generalizing s with
  | nil => simp
  | cons l ls ih =>
    have := ih (s.lineTick l)
    simp [State.lineTick] at this ⊢
    exact ⟨this.1, this.2.1, this.2.2.1, by omega⟩

end Sys2Proof.Machine
end

