-- ==== Sys2Proof/Laws/PerInstr.lean ====
section
/-! SUPPORT. Facts about every instruction as syntax, one lemma per constructor.  Family Form: the code of an instruction is
in the format the opcode table gives its row. -/

namespace Sys2Proof.Laws.Form

/-- An instruction is encoded in the format of its row. -/
def Statement (i : Instr) : Prop := (encode i).format = i.format

theorem new (start : Bool) : Statement (.new start) := rfl
theorem measure : Statement .measure := rfl
theorem nop : Statement .nop := rfl
theorem wake : Statement .wake := rfl
theorem release : Statement .release := rfl
theorem ack (phase : Level) : Statement (.ack phase) := rfl
theorem pulseL (data : Bool) : Statement (.pulseL data) := rfl
theorem pulseH (data : Bool) : Statement (.pulseH data) := rfl
theorem rdbit (phase : Level) : Statement (.rdbit phase) := rfl
theorem shift : Statement .shift := rfl
theorem csum : Statement .csum := rfl
theorem xhum : Statement .xhum := rfl
theorem xtemp : Statement .xtemp := rfl
theorem fmtH (v : Value) : Statement (.fmtH v) := rfl
theorem fmtT (v : Value) : Statement (.fmtT v) := rfl
theorem restIdle : Statement .restIdle := rfl
theorem restSuccess : Statement .restSuccess := rfl
theorem restFailed : Statement .restFailed := rfl
theorem symZero (lo hi : Nat) : Statement (.symZero lo hi) := rfl
theorem symOne (lo hi : Nat) : Statement (.symOne lo hi) := rfl
theorem symAck (lo hi : Nat) : Statement (.symAck lo hi) := rfl
theorem symTimeout (level : Level) (n : Nat) : Statement (.symTimeout level n) := rfl
theorem frame (h g : Byte) (s : Bool) (t : BitVec 7) (f c : Byte) : Statement (.frame h g s t f c) := rfl
theorem outNone : Statement .outNone := rfl
theorem outSuccess : Statement .outSuccess := rfl
theorem outTimeout : Statement .outTimeout := rfl
theorem outChecksum : Statement .outChecksum := rfl

end Sys2Proof.Laws.Form
end

