-- ==== Sys2Proof/Laws/Step.lean ====
section
/-! SUPPORT. What a step can do, said once: reset, acceptance, or the state's own transition; and how a run over a list of
inputs unfolds. -/

namespace Sys2Proof.Machine

/-- The state a tick leaves, once its input is on the ports: `rst` over everything, then `start` in a resting state, then
the state's own transition (R166). -/
def State.tickEnd (s : State) : State :=
  if s.inp.rst then s.resetRegisters
  else if s.inp.start && s.st.resting then s.accept
  else s.ownTick

/-- The meaning of a decoded command word is the tick's. -/
theorem exec_decodeCmd (s : State) : exec (decodeCmd s.inp.cmd) s = .next s.tickEnd := by
  unfold State.tickEnd
  cases hr : s.inp.rst <;> cases hs : s.inp.start <;> cases hq : s.st.resting <;>
    simp [Input.cmd, decodeCmd, exec, execNew, execMeasure, execNop, State.measureOp, hr, hs, hq]

/-- A step under a legal configuration is one tick. -/
theorem step_next (s : State) (h : s.cfg.ok = true) : step s = .next s.present.tickEnd := by
  rw [step, if_pos h, exec_decodeCmd]

/-- A step under an illegal configuration is refused. -/
theorem step_refused (s : State) (h : s.cfg.ok = false) : step s = .refused .configuration := by
  simp [step, h]

/-- What a step that answers a state can have done. -/
theorem step_cases {s t : State} (h : step s = .next t) :
    s.cfg.ok = true ∧
    ((s.present.inp.rst = true ∧ t = s.present.resetRegisters) ∨
     (s.present.inp.rst = false ∧ s.present.inp.start = true ∧ s.st.resting = true ∧ t = s.present.accept) ∨
     (s.present.inp.rst = false ∧ (s.present.inp.start = false ∨ s.st.resting = false) ∧ t = s.present.ownTick)) := by
  have hst : s.present.st = s.st := by unfold State.present; split <;> rfl
  cases hok : s.cfg.ok with
  | false => rw [step_refused s hok] at h; cases h
  | true =>
    rw [step_next s hok] at h
    injection h with h
    refine ⟨rfl, ?_⟩
    subst h
    unfold State.tickEnd
    cases hr : s.present.inp.rst <;> cases hs : s.present.inp.start <;> cases hq : s.st.resting <;> simp [hst, hq]

/-! ### The input of a tick -/

theorem State.present_cons {s : State} {i : Input} {is : List Input} (h : s.inputs = i :: is) :
    s.present = { s with inp := i, inputs := is, tick := s.tick + 1 } := by
  simp [State.present, h]

theorem State.present_nil {s : State} (h : s.inputs = []) :
    s.present = { s with inp := Input.quiet, tick := s.tick + 1 } := by
  simp [State.present, h]

/-- Presenting an input touches no register and not the parameters. -/
theorem State.present_frame (s : State) :
    s.present.registers = s.registers ∧ s.present.cfg = s.cfg ∧ s.present.text = s.text := by
  unfold State.present
  split <;> simp

@[simp] theorem State.present_cfg (s : State) : s.present.cfg = s.cfg := s.present_frame.2.1

@[simp] theorem State.present_st (s : State) : s.present.st = s.st := congrArg Registers.st s.present_frame.1

@[simp] theorem State.tickEnd_cfg (s : State) : s.tickEnd.cfg = s.cfg := by
  unfold State.tickEnd
  split
  · rfl
  · split <;> simp

@[simp] theorem State.tickEnd_inputs (s : State) : s.tickEnd.inputs = s.inputs := by
  unfold State.tickEnd
  split
  · rfl
  · split <;> simp

/-! ### Runs -/

/-- The state after a list of inputs, one tick on each. -/
def State.after (s : State) : List Input → State
  | [] => s
  | i :: is => State.after (s.withInput i).tickEnd is

@[simp] theorem State.after_nil (s : State) : s.after [] = s := rfl

@[simp] theorem State.after_cons (s : State) (i : Input) (is : List Input) :
    s.after (i :: is) = (s.withInput i).tickEnd.after is := rfl

theorem State.after_append (s : State) (is js : List Input) : s.after (is ++ js) = (s.after is).after js := by
  induction is generalizing s with
  | nil => rfl
  | cons i is ih => exact ih _

@[simp] theorem State.after_cfg (s : State) (is : List Input) : (s.after is).cfg = s.cfg := by
  induction is generalizing s with
  | nil => rfl
  | cons i is ih => simp [ih]

/-- The state with other inputs to come. -/
def State.setInputs (js : List Input) (s : State) : State := { s with inputs := js }

@[simp] theorem State.setInputs_cfg (s : State) (js : List Input) : (s.setInputs js).cfg = s.cfg := rfl
@[simp] theorem State.setInputs_st (s : State) (js : List Input) : (s.setInputs js).st = s.st := rfl
@[simp] theorem State.setInputs_inp (s : State) (js : List Input) : (s.setInputs js).inp = s.inp := rfl
@[simp] theorem State.setInputs_inputs (s : State) (js : List Input) : (s.setInputs js).inputs = js := rfl
@[simp] theorem State.setInputs_registers (s : State) (js : List Input) :
    (s.setInputs js).registers = s.registers := rfl

/-- A state's own transition does not look at the inputs to come. -/
theorem State.ownTick_setInputs (s : State) (js : List Input) :
    (s.setInputs js).ownTick = s.ownTick.setInputs js := by
  have sample : (s.setInputs js).sample = s.sample := rfl
  have count : (s.setInputs js).countSample = s.countSample.setInputs js := by
    rcases s.countSample_cases with ⟨h, e⟩ | ⟨h, e⟩
    · rw [e, (s.setInputs js).countSample_last h]; rfl
    · rw [e, (s.setInputs js).countSample_below h]; rfl
  rcases hs : s.st
  case idle | success | failed =>
    rw [s.ownTick_resting (by simp [hs, St.resting]), State.ownTick_resting _ (by simp [hs, St.resting])]
  case wake =>
    rw [s.ownTick_wake hs, (s.setInputs js).ownTick_wake hs, State.wakeTick, State.wakeTick, apply_ite (State.setInputs js)]
    rfl
  case release =>
    rw [s.ownTick_release hs, (s.setInputs js).ownTick_release hs, State.releaseTick, State.releaseTick, apply_ite (State.setInputs js)]
    rfl
  case ackLow =>
    rw [s.ownTick_ackLow hs, (s.setInputs js).ownTick_ackLow hs, State.lowTick, State.lowTick, sample, count,
      apply_ite (State.setInputs js)]
    rfl
  case bitLow =>
    rw [s.ownTick_bitLow hs, (s.setInputs js).ownTick_bitLow hs, State.lowTick, State.lowTick, sample, count,
      apply_ite (State.setInputs js)]
    rfl
  case ackHigh =>
    rw [s.ownTick_ackHigh hs, (s.setInputs js).ownTick_ackHigh hs, State.ackHighTick, State.ackHighTick, sample, count,
      apply_ite (State.setInputs js)]
    rfl
  case bitHigh =>
    have bit : (s.setInputs js).shiftIn.nextBit = s.shiftIn.nextBit.setInputs js := by
      rw [State.nextBit, State.nextBit, apply_ite (State.setInputs js)]
      rfl
    rw [s.ownTick_bitHigh hs, (s.setInputs js).ownTick_bitHigh hs, State.bitHighTick, State.bitHighTick, sample, count, bit,
      apply_ite (State.setInputs js)]
  case validate =>
    cases hc : s.checksumOk
    · rw [s.ownTick_validate_differ hs hc, (s.setInputs js).ownTick_validate_differ hs hc]; rfl
    · rw [s.ownTick_validate_match hs hc, (s.setInputs js).ownTick_validate_match hs hc]; rfl

/-- A tick does not look at the inputs to come. -/
theorem State.tickEnd_setInputs (s : State) (js : List Input) :
    (s.setInputs js).tickEnd = s.tickEnd.setInputs js := by
  unfold State.tickEnd
  rw [State.ownTick_setInputs, State.setInputs_inp, State.setInputs_st]
  split
  · rfl
  · split <;> rfl

/-- A step on the next input of the list. -/
theorem step_cons (s : State) (i : Input) (is : List Input) (h : s.cfg.ok = true) :
    step (s.setInputs (i :: is)) = .next ((s.withInput i).tickEnd.setInputs is) := by
  rw [step_next (s.setInputs (i :: is)) h]
  exact congrArg _ (State.tickEnd_setInputs (s.withInput i) is)

/-- A run whose first step answers a state goes on from it. -/
theorem run_succ (M : Host.Core) {s t : M.State} {k : Nat} (h : M.step s = .next t) :
    M.run (k + 1) s = M.run k t := by
  rw [Host.Core.run, h]

/-- A run over given inputs, under a legal configuration, answers the state after them (and no inputs are left). -/
theorem runOn_eq (s : State) (is : List Input) (h : s.cfg.ok = true) :
    runOn s is = .next ((s.after is).setInputs []) := by
  induction is generalizing s with
  | nil => rfl
  | cons i is ih =>
    have hk : (s.withInput i).tickEnd.cfg.ok = true := by simpa using h
    have e := step_cons s i is h
    exact (run_succ Sys2Proof.core e).trans (ih _ hk)

end Sys2Proof.Machine
end

