-- ==== Sys2Proof/Tests/Slice0.lean ====
section
/-! SUPPORT. Tests: ill-formed terms that the well-formedness check refuses, words of the table written out bit by bit,
one-tick vectors of spec/95_test_vectors.md (their ids are given), and for every obligation with hypotheses a state and
operands that meet them. -/

namespace Sys2Proof.Tests

open Sys2Proof Sys2Proof.Machine

/-! ### Helpers -/

/-- The registers a meaning or a step leaves. -/
def regs : Result → Option Registers
  | .next s => some s.registers
  | _ => none

/-- The text a meaning leaves. -/
def textOf : Result → Option String
  | .next s => some (String.ofList s.text)
  | _ => none

/-- A state with given `ST`, `DLY`, `CNT`, `LO`, `IDX`, `F` and a given level on the line; no command. -/
def mk (x : St) (dly cnt lo idx : Nat) (f : Frame) (l : Level) : State :=
  { State.reset with st := x, dly := dly, cnt := cnt, lo := lo, idx := idx, f := f, inp := ⟨false, false, some l⟩ }

/-- The same with a command on the port. -/
def commanded (rst start : Bool) (s : State) : State := { s with inp := ⟨rst, start, s.inp.line⟩ }

/-- A small legal configuration: WAKE and RELEASE take two ticks each, the limit is 5 samples. -/
def small : Config := { Config.standard with wakeMs := 1, releaseUs := 2, timeoutTicks := 5, ticksPerMs := 2 }

/-- The frame of V-P1, and of V-P1's bits 0 to 38. -/
def frameP1 : Frame := ⟨0x30#8, 0x02#8, 0x17#8, 0x05#8, 0x4E#8⟩

/-- A finished run: the start state of vectors M5 and M7. -/
def finished : State :=
  { mk .success 0 27 50 39 frameP1 high with temp := 235, hum := 482 }

/-- A failed run: the start state of vector M6. -/
def failedRun : State := { mk .failed 0 999 0 0 Frame.zero high with err := .timeout }

/-! ### Well-formedness: one ill-formed term for each check -/

theorem test_wf_zero_low_too_long : (Instr.symZero 1000 1).wellFormed Config.standard = false := by decide
theorem test_wf_zero_no_high : (Instr.symZero 50 0).wellFormed Config.standard = false := by decide
theorem test_wf_zero_high_longer : (Instr.symZero 50 51).wellFormed Config.standard = false := by decide
theorem test_wf_one_not_longer : (Instr.symOne 50 50).wellFormed Config.standard = false := by decide
theorem test_wf_one_high_too_long : (Instr.symOne 50 1000).wellFormed Config.standard = false := by decide
theorem test_wf_ack_low_too_long : (Instr.symAck 1000 80).wellFormed Config.standard = false := by decide
theorem test_wf_ack_no_high : (Instr.symAck 80 0).wellFormed Config.standard = false := by decide
theorem test_wf_ack_high_too_long : (Instr.symAck 80 1000).wellFormed Config.standard = false := by decide
theorem test_wf_timeout_too_short : (Instr.symTimeout low 999).wellFormed Config.standard = false := by decide

/-! ### Configurations: the defaults are legal, a break of each bound of R8 is not -/

theorem test_config_defaults :
    Config.standard.ok = true ∧ Config.standard.wakeTicks = 20000 ∧ Config.standard.firstSample = 20041 ∧
    Config.standard.wCnt = 10 ∧ Config.standard.wDly = 15 ∧ Config.standard.wIdx = 6 ∧ Config.standard.wVal = 16 ∧
    small.ok = true := by decide

theorem test_config_bounds :
    ({ Config.standard with timeoutTicks := 1 } : Config).ok = false ∧
    ({ Config.standard with timeoutTicks := 1024 } : Config).ok = false ∧
    ({ Config.standard with wakeMs := 0 } : Config).ok = false ∧
    ({ Config.standard with releaseUs := 0 } : Config).ok = false ∧
    ({ Config.standard with wakeMs := 33 } : Config).ok = false ∧
    ({ Config.standard with releaseUs := 32769 } : Config).ok = false ∧
    ({ Config.standard with frameBits := 39 } : Config).ok = false ∧
    ({ Config.standard with wCnt := 9 } : Config).ok = false ∧
    ({ Config.standard with wDly := 14 } : Config).ok = false ∧
    ({ Config.standard with wIdx := 5 } : Config).ok = false ∧
    ({ Config.standard with wVal := 11 } : Config).ok = false ∧
    ({ Config.standard with frameBits := 32, frameBytes := 4 } : Config).ok = false := by decide

/-- Wider registers carry longer limits, and the least widths are legal too (decisions D13, D14). -/
theorem test_config_widths :
    ({ Config.standard with timeoutTicks := 3000, wCnt := 12 } : Config).ok = true ∧
    ({ Config.standard with wakeMs := 100, wDly := 17 } : Config).ok = true ∧
    ({ Config.standard with wVal := 12 } : Config).ok = true ∧
    (regs (exec .nop { mk .bitLow 0 2000 0 3 Frame.zero low with
      cfg := { Config.standard with timeoutTicks := 3000, wCnt := 12 } })).map Registers.cnt = some 2001 := by decide

/-! ### Decoding: words written out from spec/30_encoding.md and the match words of the table -/

theorem test_decode_cmd :
    decodeCmd 0b10#2 = .new false ∧ decodeCmd 0b11#2 = .new true ∧ decodeCmd 0b01#2 = .measure ∧
    decodeCmd 0b00#2 = .nop := by decide

theorem test_decode_st_handshake :
    decodeSt 0b0001#4 = .ok [.wake] ∧ decodeSt 0b0010#4 = .ok [.release] ∧
    decodeSt 0b0100#4 = .ok [.ack low, .pulseL false] ∧ decodeSt 0b0101#4 = .ok [.pulseH false, .ack high] :=
  ⟨rfl, rfl, rfl, rfl⟩

theorem test_decode_st_bits :
    decodeSt 0b0110#4 = .ok [.rdbit low, .pulseL true] ∧ decodeSt 0b0111#4 = .ok [.pulseH true, .rdbit high] ∧
    decodeStLine 0b01110#5 = .ok [.shift] :=
  ⟨rfl, rfl, rfl⟩

theorem test_decode_st_rest :
    decodeSt 0b0011#4 = .ok [.csum, .xhum, .xtemp] ∧ decodeSt 0b0000#4 = .ok [.restIdle] ∧
    decodeSt 0b1000#4 = .ok [.restSuccess] ∧ decodeSt 0b1001#4 = .ok [.restFailed] :=
  ⟨rfl, rfl, rfl, rfl⟩

theorem test_decode_rejects :
    decodeSt 0b1010#4 = .error (.unusedStateCode 0b1010#4) ∧ decodeSt 0b1111#4 = .error (.unusedStateCode 0b1111#4) ∧
    decodeStLine 0b01111#5 = .error (.keySelectsNothing 0b01111#5) ∧
    decodeOut 0b001#3 = .error (.outcomeNeverOccurs 0b001#3) ∧ decodeOut 0b111#3 = .error (.outcomeNeverOccurs 0b111#3) :=
  ⟨rfl, rfl, rfl, rfl, rfl⟩

theorem test_decode_out :
    decodeOut 0b000#3 = .ok [.outNone] ∧ decodeOut 0b100#3 = .ok [.outSuccess] ∧
    decodeOut 0b101#3 = .ok [.outTimeout] ∧ decodeOut 0b110#3 = .ok [.outChecksum] :=
  ⟨rfl, rfl, rfl, rfl⟩

/-- The frame bits of V-P1 and V-P2, in line order. -/
theorem test_decode_frame :
    decodeFrame 0b00110000_00000010_00010111_00000101_01001110#40 =
      .frame 0x30#8 0x02#8 false 0x17#7 0x05#8 0x4E#8 ∧
    decodeFrame 0b11111111_00000001_10010111_00000101_10011100#40 =
      .frame 0xFF#8 0x01#8 true 0x17#7 0x05#8 0x9C#8 := by decide

theorem test_decode_symbols :
    decodeSym small .data [low, low, high] = .ok [.symZero 2 1] ∧
    decodeSym small .data [low, high, high] = .ok [.symOne 1 2] ∧
    decodeSym small .first [high, high] = .ok [.symAck 0 2] ∧
    decodeSym small .data [low, low, low, low, low] = .ok [.symTimeout low 5] :=
  ⟨rfl, rfl, rfl, rfl⟩

theorem test_decode_symbol_rejects :
    decodeSym small .data [low, low] = .error .incompleteSymbol ∧
    decodeSym small .data [low, high, low] = .error .moreThanOneSymbol ∧
    decodeSym small .data [low, high, high, high, high, high] = .error .phaseTooLong :=
  ⟨rfl, rfl, rfl⟩

/-- The texts of E1, E2, E3. -/
theorem test_decode_txt :
    decodeTxt ['2', '3', '.', '5', '°', 'C'] = .ok [.fmtT 235#16] ∧
    decodeTxt ['-', '2', '3', '.', '5', '°', 'C'] = .ok [.fmtT 0xFF15#16] ∧
    decodeTxt ['4', '8', '.', '2', '%'] = .ok [.fmtH 482#16] ∧
    decodeTxt ['0', '4', '.', '2', '%'] = .error .notARendering :=
  ⟨rfl, rfl, rfl, rfl⟩

/-- The table's words as the host numbers them, and the step they run. -/
theorem test_table_words :
    decodeTableWord 2 1 = some .measure ∧ decodeTableWord 4 7 = some (.pulseH true) ∧
    decodeTableWord 3 6 = some .outChecksum ∧ decodeTableWord 5 14 = some .shift ∧ decodeTableWord 4 10 = none ∧
    (regs (step (State.reset.withFetchWord 2 1))).map Registers.st = some .wake := by decide

/-! ### Commands (2.1) -/

/-- M8, and NEW over MEASURE (M3). -/
theorem test_new : regs (exec (.new true) (commanded true true
    (mk .bitHigh 0 12 50 20 ⟨0x30#8, 0x02#8, 0x01#8, 0x00#8, 0x00#8⟩ high))) =
    some State.reset.registers := by decide

/-- M5. -/
theorem test_measure_accepted : regs (exec .measure (commanded false true finished)) =
    some { State.reset.registers with st := .wake } := by decide

/-- M4. -/
theorem test_measure_ignored : regs (exec .measure (commanded false true (mk .wake 9 0 0 0 Frame.zero low))) =
    some { State.reset.registers with st := .wake, dly := 10 } := by decide

/-- M7. -/
theorem test_nop : regs (exec .nop finished) = some finished.registers := by decide

/-- M3 through a step: reset wins, and M6 through a step. -/
theorem test_step :
    regs (step { finished with inputs := [⟨true, true, some low⟩] }) = some State.reset.registers ∧
    regs (step { failedRun with inputs := [⟨false, true, some low⟩] }) =
      some { State.reset.registers with st := .wake } := by decide

/-! ### Handshake (2.2) -/

/-- H2 and H3. -/
theorem test_wake :
    regs (exec .wake (mk .wake 19998 0 0 0 Frame.zero high)) =
      some { State.reset.registers with st := .wake, dly := 19999 } ∧
    regs (exec .wake (mk .wake 19999 0 0 0 Frame.zero high)) =
      some { State.reset.registers with st := .release } := by decide

/-- H4 and H5. -/
theorem test_release :
    regs (exec .release (mk .release 38 0 0 0 Frame.zero low)) =
      some { State.reset.registers with st := .release, dly := 39 } ∧
    regs (exec .release (mk .release 39 0 0 0 Frame.zero low)) =
      some { State.reset.registers with st := .ackLow } := by decide

/-- H8 and H11. -/
theorem test_ack_low :
    regs (exec (.ack low) (mk .ackLow 0 80 0 0 Frame.zero high)) =
      some { State.reset.registers with st := .ackHigh, lo := 80, cnt := 1 } ∧
    regs (exec (.ack low) (mk .ackLow 0 999 0 0 Frame.zero low)) =
      some { State.reset.registers with st := .failed, err := .timeout, cnt := 999 } := by decide

/-- H9: the frame is unchanged although `hi = lo`. -/
theorem test_ack_high : regs (exec (.ack high) (mk .ackHigh 0 80 80 0 Frame.zero low)) =
    some { State.reset.registers with st := .bitLow, cnt := 1, lo := 80 } := by decide

/-! ### Pulses (2.3) -/

/-- P8 and P9. -/
theorem test_pulse_low :
    (regs (exec (.pulseL true) (mk .bitLow 0 49 7 3 Frame.zero low))).map Registers.cnt = some 50 ∧
    regs (exec (.pulseL true) (mk .bitLow 0 50 7 3 Frame.zero high)) =
      some { State.reset.registers with st := .bitHigh, cnt := 1, lo := 50, idx := 3 } := by decide

/-- P10 and P12. -/
theorem test_pulse_high :
    regs (exec (.pulseH true) (mk .bitHigh 0 70 50 3 ⟨0x01#8, 0#8, 0#8, 0#8, 0#8⟩ low)) =
      some { State.reset.registers with
        st := .bitLow, cnt := 1, lo := 50, idx := 4, f := ⟨0x03#8, 0#8, 0#8, 0#8, 0#8⟩ } ∧
    (regs (exec (.pulseH true) (mk .bitHigh 0 50 50 3 ⟨0x01#8, 0#8, 0#8, 0#8, 0#8⟩ low))).map Registers.f =
      some ⟨0x02#8, 0#8, 0#8, 0#8, 0#8⟩ := by decide

/-- P14 and P15. -/
theorem test_rdbit :
    regs (exec (.rdbit high) (mk .bitHigh 0 27 50 39 ⟨0x30#8, 0x02#8, 0x17#8, 0x05#8, 0x27#8⟩ low)) =
      some { State.reset.registers with st := .validate, cnt := 27, lo := 50, idx := 39, f := frameP1 } ∧
    (regs (exec (.rdbit high) (mk .bitHigh 0 999 50 3 Frame.zero high))).map Registers.err =
      some .timeout := by decide

/-- The frame write of P18: the byte's old bit 7 is lost; a bit position names its own byte. -/
theorem test_shift :
    (regs (exec .shift (mk .bitHigh 0 70 50 7 ⟨0x80#8, 0#8, 0#8, 0#8, 0#8⟩ low))).map Registers.f =
      some ⟨0x01#8, 0#8, 0#8, 0#8, 0#8⟩ ∧
    (regs (exec .shift (mk .bitHigh 0 27 50 16 ⟨0x30#8, 0x02#8, 0x7F#8, 0#8, 0#8⟩ low))).map Registers.f =
      some ⟨0x30#8, 0x02#8, 0xFE#8, 0#8, 0#8⟩ := by decide

/-- `Pulse(level)` of P1, P4 and P6, the limit 1000. -/
theorem test_pulse_durations :
    pulse 1000 low (fun n => decide (3 ≤ n)) 0 = .measured 3 3 ∧
    pulse 1000 low (fun n => decide (n < 5)) 0 = .measured 0 0 ∧
    pulse 5 low (fun _ => low) 0 = .timeout 4 := by decide

/-! ### Checksum and values (2.4) -/

/-- K8 and K3. -/
theorem test_csum :
    regs (exec .csum (mk .validate 0 0 0 0 ⟨0x30#8, 0x02#8, 0x17#8, 0x05#8, 0x4F#8⟩ low)) =
      some { State.reset.registers with
        st := .failed, err := .checksumMismatch, f := ⟨0x30#8, 0x02#8, 0x17#8, 0x05#8, 0x4F#8⟩ } ∧
    (regs (exec .csum (mk .validate 0 0 0 0 ⟨0xFF#8, 0xFF#8, 0xFF#8, 0xFF#8, 0xFC#8⟩ low))).map
      Registers.st = some .validate := by decide

/-- `(0xFF, 0xFF) → 2805`. -/
theorem test_xhum :
    (regs (exec .xhum (mk .validate 0 0 0 0 ⟨0xFF#8, 0xFF#8, 0xFF#8, 0xFF#8, 0xFC#8⟩ low))).map
      Registers.hum = some 2805 := by decide

/-- `(0x97, 0x05) → −235` and `(0x10, 0xFF) → 415`. -/
theorem test_xtemp :
    (regs (exec .xtemp (mk .validate 0 0 0 0 ⟨0xFF#8, 0x01#8, 0x97#8, 0x05#8, 0x9C#8⟩ low))).map
      Registers.temp = some (-235) ∧
    (regs (exec .xtemp (mk .validate 0 0 0 0 ⟨0x10#8, 0xFF#8, 0x10#8, 0xFF#8, 0x1E#8⟩ low))).map
      Registers.temp = some 415 := by decide

/-- V-P1, the tick of VALIDATE; V-P3, the same with a wrong checksum. -/
theorem test_validate :
    regs (exec .nop (mk .validate 0 27 50 39 frameP1 high)) = some finished.registers ∧
    (regs (exec .nop (mk .validate 0 70 50 39 ⟨0x81#8, 0#8, 0#8, 0#8, 0x01#8⟩ high))).map Registers.err =
      some .checksumMismatch := by decide

/-! ### Rendering (2.5) -/

/-- T1 and T7. -/
theorem test_fmtH : textOf (exec (.fmtH 0) State.reset) = some "0.0%" ∧
    textOf (exec (.fmtH 2805#16) State.reset) = some "280.5%" := by decide

/-- T3 and T8. -/
theorem test_fmtT : textOf (exec (.fmtT (-5#16)) State.reset) = some "-0.5°C" ∧
    textOf (exec (.fmtT (-1525#16)) State.reset) = some "-152.5°C" := by decide

/-! ### Resting states, outcomes and ports (2.6) -/

theorem test_rest :
    regs (exec .restIdle (commanded false true State.reset)) = some { State.reset.registers with st := .wake } ∧
    regs (exec .restSuccess finished) = some finished.registers ∧
    regs (exec .restFailed (commanded false true failedRun)) = some { State.reset.registers with st := .wake } := by
  decide

theorem test_outcomes :
    regs (exec .outNone finished) = some finished.registers ∧
    regs (exec .outTimeout (mk .bitLow 0 999 0 3 Frame.zero low)) =
      some { State.reset.registers with st := .failed, err := .timeout, cnt := 999, idx := 3 } ∧
    (regs (exec .outChecksum (mk .validate 0 0 0 0 ⟨1#8, 0#8, 0#8, 0#8, 0#8⟩ low))).map Registers.err =
      some .checksumMismatch ∧
    (regs (exec .outSuccess (mk .validate 0 0 0 0 Frame.zero low))).map Registers.st = some .success := by
  decide

/-- X2, X4, X5. -/
theorem test_ports :
    (mk .wake 0 0 0 0 Frame.zero high).outputs = ⟨true, true, false, 0#2, 0, 0⟩ ∧
    ({ finished with temp := -235, hum := 2551 } : State).outputs =
      ⟨false, false, true, 0#2, -235, 2551⟩ ∧
    ({ finished with temp := -235, hum := 2551 } : State).tempPattern.toNat = 0xFF15 ∧
    ({ finished with temp := -235, hum := 2551 } : State).humPattern.toNat = 0x09F7 ∧
    failedRun.outputs = ⟨false, false, true, 1#2, 0, 0⟩ ∧ failedRun.statusWord = 0b1001#4 ∧
    failedRun.outWord = 0b101#3 := by decide

/-! ### Symbols -/

/-- H6 and what follows it: a high sample at once measures a zero-length low phase. -/
theorem test_symAck : regs (exec (.symAck 0 2) (mk .ackLow 0 0 0 0 Frame.zero low)) =
    some { State.reset.registers with st := .ackHigh, cnt := 2 } := by decide

theorem test_symZero : regs (exec (.symZero 2 1) (mk .ackHigh 0 3 3 0 Frame.zero high)) =
    some { State.reset.registers with st := .bitHigh, lo := 2, cnt := 1 } := by decide

/-- The symbol's first sample decides the bit before it, here a ONE at position 0. -/
theorem test_symOne : regs (exec (.symOne 1 2) (mk .bitHigh 0 3 2 0 Frame.zero high)) =
    some { State.reset.registers with
      st := .bitHigh, lo := 1, cnt := 2, idx := 1, f := ⟨1#8, 0#8, 0#8, 0#8, 0#8⟩ } := by decide

/-- Log entry 24: without a low phase the samples lengthen the high phase that is being measured. -/
theorem test_symOne_without_low : regs (exec (.symOne 0 2) (mk .bitHigh 0 3 7 0 Frame.zero high)) =
    some { State.reset.registers with st := .bitHigh, cnt := 5, lo := 7 } := by decide

theorem test_symTimeout :
    regs (exec (.symTimeout high 5) { mk .bitHigh 0 3 2 9 Frame.zero high with cfg := small }) =
      some { State.reset.registers with st := .failed, err := .timeout, cnt := 4, lo := 2, idx := 9 } := by
  decide

/-- FRAME's waveform: the first symbol of a frame whose bit 7 of byte 0 is 1 is `O = L50 H70`, and its length is that of the
forty nominal symbols (V-P1: 13 ones, 27 zeros). -/
theorem test_frame_wave :
    (bitWave true).length = 120 ∧ leading low (bitWave true) = 50 ∧ (bitWave false).length = 77 ∧
    byteWave 0x81#8 = bitWave true ++ bitWave false ++ bitWave false ++ bitWave false ++ bitWave false ++
      bitWave false ++ bitWave false ++ bitWave true :=
  ⟨rfl, rfl, rfl, rfl⟩

/-! ### Witnesses: for each obligation with hypotheses, a state and operands that meet them together -/

/-- A state of a run in progress, at bit position 16 of V-P1, with one input to come. -/
def midRun (x : St) (cnt : Nat) (l : Level) : State :=
  { mk x 0 cnt 50 16 ⟨0x30#8, 0x02#8, 0#8, 0#8, 0#8⟩ l with inputs := [⟨false, true, some l⟩] }

/-- A state in VALIDATE whose frame's checksum matches, and one whose does not. -/
def validating (b4 : Byte) : State :=
  { mk .validate 0 27 50 39 ⟨0x30#8, 0x02#8, 0x17#8, 0x05#8, b4⟩ low with
    inputs := [⟨false, false, some low⟩] }

theorem witness_ResetInputOverridesEverything :
    ∃ (s : State) (i : Input) (rest : List Input), s.cfg.ok = true ∧ s.inputs = i :: rest ∧ i.rst = true ∧
      s.registers ≠ State.reset.registers :=
  ⟨{ finished with inputs := [⟨true, true, some low⟩] }, _, _, by decide, rfl, rfl, by decide⟩

theorem witness_StepRunsTheDecodedCommand :
    (∃ (s : State) (i : Instr) (l : List Instr), s.cfg.ok = true ∧
      decode s.cfg (.cmd s.present.inp.cmd) = .ok (i :: l) ∧ i = .measure) ∧
    (∃ (s : State) (j : Input) (js : List Input), s.inputs = j :: js) ∧ (∃ s : State, s.inputs = []) :=
  ⟨⟨midRun .bitLow 3 low, _, [], by decide, rfl, rfl⟩, ⟨midRun .bitLow 3 low, _, _, rfl⟩, ⟨finished, rfl⟩⟩

theorem witness_StepIsTotalOrRefusesTheConfiguration :
    (∃ s : State, s.cfg.ok = true) ∧
    (∃ s : State, s.cfg.ok = false ∧ s.cfg.timeoutTicks = 1) ∧
    (∃ s : State, s.cfg.ok = false ∧ s.cfg.timeoutTicks = 1024) :=
  ⟨⟨finished, by decide⟩,
   ⟨{ finished with cfg := { Config.standard with timeoutTicks := 1 } }, by decide, rfl⟩,
   ⟨{ finished with cfg := { Config.standard with timeoutTicks := 1024 } }, by decide, rfl⟩⟩

/-- Every row of the table has a state at a tick with `rst = 0`; the counts are at their last values. -/
theorem witness_SequencerFollowsTheTransitionTable :
    ∀ x : St, ∃ s : State, s.cfg.ok = true ∧ s.present.inp.rst = false ∧ s.st = x ∧ s.cnt = 999 := by
  intro x
  exact ⟨midRun x 999 low, test_config_defaults.1, rfl, rfl, rfl⟩

theorem witness_EveryRowTheStateSelectsIsTheTick :
    ∃ (s : State) (l : List Instr) (i : Instr), s.busy = true ∧ s.st ≠ .validate ∧
      decode s.cfg (.st s.st.code) = .ok l ∧ i ∈ l ∧ i = .rdbit high :=
  ⟨midRun .bitHigh 3 low, _, _, rfl, by decide, rfl, by decide, rfl⟩

theorem witness_UnselectedOperationsWriteNothing :
    ∃ s : State, s.st ≠ .wake ∧ s.st ≠ .release ∧ s.st ≠ St.measure false low ∧ s.st ≠ St.measure true low ∧
      ¬(s.st = .bitHigh ∧ s.sample = low) ∧ s.st ≠ .validate ∧ s.st.measuring = false :=
  ⟨finished, by decide⟩

theorem witness_MeasureIsAcceptedInARestingState :
    ∀ x ∈ [St.idle, .success, .failed], ∃ (s : State) (i : Input) (rest : List Input), s.st = x ∧
      s.cfg.ok = true ∧ s.inputs = i :: rest ∧ i.rst = false ∧ i.start = true := by
  intro x _
  exact ⟨midRun x 999 low, _, _, rfl, test_config_defaults.1, rfl, rfl, rfl⟩

theorem witness_MeasureWhileBusyIsIgnored :
    ∃ s u : State, s.busy = true ∧ s.st = .wake ∧ u.busy = true ∧ u.st = .validate :=
  ⟨midRun .wake 0 low, validating 0x4E#8, by decide⟩

theorem witness_NopInARestingStateChangesNothing :
    ∀ x ∈ [St.idle, .success, .failed], ∃ (s : State) (i : Input) (rest : List Input), s.st = x ∧
      s.cfg.ok = true ∧ s.inputs = i :: rest ∧ i.rst = false ∧ i.start = false := by
  intro x _
  exact ⟨{ midRun x 999 low with inputs := [⟨false, false, none⟩] }, _, _, rfl, test_config_defaults.1, rfl, rfl, rfl⟩

theorem witness_WakeCountsTheWakePulse :
    ∃ s u : State, s.st = .wake ∧ s.dly + 1 = s.cfg.wakeTicks ∧ u.st = .wake ∧ u.dly + 1 ≠ u.cfg.wakeTicks :=
  ⟨mk .wake 19999 0 0 0 Frame.zero low, mk .wake 0 0 0 0 Frame.zero low, by decide⟩

theorem witness_ReleaseCountsTheWait :
    ∃ s u : State, s.st = .release ∧ s.dly + 1 = s.cfg.releaseTicks ∧
      u.st = .release ∧ u.dly + 1 ≠ u.cfg.releaseTicks :=
  ⟨mk .release 39 0 0 0 Frame.zero low, mk .release 0 0 0 0 Frame.zero low, by decide⟩

/-- The phases of a measurement, each at its limit. -/
theorem witness_AckMeasuresAndDiscards :
    ∃ s u : State, s.st = .ackLow ∧ s.sample = low ∧ s.cnt + 1 = s.cfg.timeoutTicks ∧
      u.st = .ackHigh ∧ u.sample = low :=
  ⟨midRun .ackLow 999 low, midRun .ackHigh 999 low, by decide⟩

theorem witness_HandshakeKeepsItsTimeline :
    ∃ (s : State) (i : Input) (is : List Input), s.cfg.ok = true ∧ s.st.resting = true ∧ i.rst = false ∧ i.start = true ∧
      NoReset is ∧ s.cfg.wakeTicks - 1 < s.cfg.wakeTicks ∧ s.cfg.wakeTicks + s.cfg.releaseTicks ≤ is.length :=
  ⟨{ finished with cfg := small }, ⟨false, true, none⟩, List.replicate 4 ⟨false, true, none⟩, by decide, by decide, rfl, rfl,
    fun i hi => by rw [List.eq_of_mem_replicate hi], by decide, by decide⟩

theorem witness_DriveLowShowsTheHandshakeWaveform :
    (∃ (s : State) (i : Input) (is : List Input) (n : Nat), s.cfg.ok = true ∧ s.st.resting = true ∧ i.rst = false ∧
      i.start = true ∧ NoReset is ∧ n ≤ is.length ∧ n < s.cfg.wakeTicks + s.cfg.releaseTicks ∧ n = s.cfg.wakeTicks) ∧
    (∃ s t : State, step s = .next t ∧ t.driveLow = true ∧ s.driveLow = false) :=
  ⟨⟨{ finished with cfg := small }, ⟨false, true, none⟩, List.replicate 4 ⟨false, true, none⟩, 2, by decide, by decide, rfl,
    rfl, fun i hi => by rw [List.eq_of_mem_replicate hi], by decide, by decide, by decide⟩,
   ⟨midRun .idle 0 low, _, rfl, by decide, by decide⟩⟩

theorem witness_PulseLowMeasuresTheLowPhase :
    ∀ data : Bool, ∃ s : State, s.cfg.ok = true ∧ s.cnt < s.cfg.timeoutTicks ∧
      s.st = (if data then .bitLow else .ackLow) ∧ s.cnt + 1 = s.cfg.timeoutTicks := by
  intro data
  exact ⟨midRun (if data then .bitLow else .ackLow) 999 low, test_config_defaults.1, Nat.lt_succ_self 999, rfl, rfl⟩

theorem witness_PulseHighMeasuresTheHighPhase :
    ∃ s u : State, s.cfg.ok = true ∧ s.cnt < s.cfg.timeoutTicks ∧ s.idx ≤ 39 ∧ s.st = .bitHigh ∧ s.sample = low ∧
      s.idx = 39 ∧ u.cfg.ok = true ∧ u.cnt < u.cfg.timeoutTicks ∧ u.idx ≤ 39 ∧ u.st = .ackHigh ∧ u.sample = high :=
  ⟨mk .bitHigh 0 27 50 39 frameP1 low, midRun .ackHigh 3 high, by decide⟩

theorem witness_RdbitMeasuresBothPhases :
    ∃ s u : State, s.st = .bitLow ∧ s.sample = high ∧ u.st = .bitHigh ∧ u.sample = low ∧ u.idx ≠ 39 :=
  ⟨midRun .bitLow 50 high, midRun .bitHigh 70 low, by decide⟩

theorem witness_ShiftPutsTheBitIntoItsByte :
    ∃ s u : State, s.st = .bitHigh ∧ s.sample = low ∧ s.idx = 39 ∧
      u.st = .bitHigh ∧ u.sample = low ∧ u.idx = 0 :=
  ⟨mk .bitHigh 0 27 50 39 frameP1 low, mk .bitHigh 0 70 50 0 Frame.zero low, by decide⟩

theorem witness_TimeoutAtExactlyTheLimit :
    ∀ x ∈ [St.ackLow, .ackHigh, .bitLow, .bitHigh], ∃ s : State, s.st = x ∧ s.st.measuring = true ∧
      s.sample = s.st.level ∧ s.cnt + 1 = s.cfg.timeoutTicks := by
  intro x hx
  refine ⟨midRun x 999 x.level, rfl, ?_, rfl, rfl⟩
  fin_cases hx <;> rfl

theorem witness_PulseMeasuresARunOfSamples :
    1 ≤ small.timeoutTicks ∧ pulse small.timeoutTicks low (fun n => decide (4 ≤ n)) 0 = .measured 4 4 ∧
    pulse small.timeoutTicks low (fun n => decide (5 ≤ n)) 0 = .timeout 4 := by decide

theorem witness_CsumRaisesOnAMismatch :
    ∃ s u : State, s.st = .validate ∧ s.f.sum = s.f.csum ∧ u.st = .validate ∧ u.f.sum ≠ u.f.csum :=
  ⟨validating 0x4E#8, validating 0x4F#8, by decide⟩

theorem witness_XhumExtractsTheHumidity :
    ∃ s u : State, s.st = .validate ∧ s.f.b0 + s.f.b1 + s.f.b2 + s.f.b3 = s.f.b4 ∧ s.cfg.ok = true ∧
      u.st = .validate ∧ u.f.b0 + u.f.b1 + u.f.b2 + u.f.b3 ≠ u.f.b4 :=
  ⟨validating 0x4E#8, validating 0x4F#8, by decide⟩

theorem witness_XtempExtractsTheTemperature :
    ∃ s u v : State, s.st = .validate ∧ s.f.b0 + s.f.b1 + s.f.b2 + s.f.b3 = s.f.b4 ∧ s.f.b2.toNat < 128 ∧ s.cfg.ok = true ∧
      u.st = .validate ∧ u.f.b0 + u.f.b1 + u.f.b2 + u.f.b3 = u.f.b4 ∧ 128 ≤ u.f.b2.toNat ∧ u.cfg.ok = true ∧
      v.st = .validate ∧ v.f.b0 + v.f.b1 + v.f.b2 + v.f.b3 ≠ v.f.b4 :=
  ⟨validating 0x4E#8, { validating 0#8 with f := ⟨0#8, 0#8, 0x80#8, 0#8, 0x80#8⟩ }, validating 0x4F#8, by decide⟩

theorem witness_ValidateTakesOneTick :
    ∃ s : State, s.cfg.ok = true ∧ s.st = .validate ∧ s.inp.start = true :=
  ⟨commanded false true (validating 0x4E#8), by decide⟩

theorem witness_ValuesFillTheirRanges :
    (∃ f : Frame, f.humidity = 2805) ∧ (∃ f : Frame, f.temperature = -1525) ∧
    (∃ f : Frame, f.humFrac.toNat = 9 ∧ f.tFrac.toNat = 9 ∧ f.humInt.toNat = 100 ∧ f.tMag.toNat = 99) :=
  ⟨⟨⟨0xFF#8, 0xFF#8, 0#8, 0#8, 0#8⟩, by decide⟩, ⟨⟨0#8, 0#8, 0xFF#8, 0xFF#8, 0#8⟩, by decide⟩,
   ⟨⟨100#8, 9#8, 0xE3#8, 9#8, 0#8⟩, by decide⟩⟩

theorem witness_OutcomesAreReachedAsTheSpecRaisesThem :
    ∃ s u v : State, s.st.measuring = true ∧ s.sample = s.st.level ∧ s.cnt + 1 = s.cfg.timeoutTicks ∧
      u.st = .validate ∧ u.f.b0 + u.f.b1 + u.f.b2 + u.f.b3 ≠ u.f.b4 ∧
      v.st = .validate ∧ v.f.b0 + v.f.b1 + v.f.b2 + v.f.b3 = v.f.b4 ∧ v.err = .none :=
  ⟨midRun .bitLow 999 low, validating 0x4F#8, validating 0x4E#8, by decide⟩

theorem witness_AcknowledgementSymbolIsMeasured :
    ∃ s : State, s.cfg.ok = true ∧ s.st = .ackLow ∧ s.cnt = 0 ∧ (Instr.symAck 999 999).wellFormed s.cfg = true ∧
      (Instr.symAck 0 1).wellFormed s.cfg = true :=
  ⟨midRun .ackLow 0 low, by decide⟩

theorem witness_DataSymbolIsMeasuredAndDecoded :
    ∃ s u t : State, s.cfg.ok = true ∧ s.st = .ackHigh ∧ u.cfg.ok = true ∧ u.st = .bitHigh ∧ u.idx = 38 ∧
      (Instr.symZero 999 999).wellFormed s.cfg = true ∧ (Instr.symOne 998 999).wellFormed u.cfg = true ∧
      t.lo = 998 ∧ t.cnt = 999 :=
  ⟨midRun .ackHigh 80 high, mk .bitHigh 0 27 50 38 frameP1 high,
    mk .bitHigh 0 999 998 0 Frame.zero low, by decide⟩

theorem witness_SymbolWithoutALowPhaseLengthensTheHighPhase :
    ∃ s u : State, s.cfg.ok = true ∧ s.st = .ackHigh ∧ (Instr.symOne 0 1).wellFormed s.cfg = true ∧
      s.cnt < s.cfg.timeoutTicks ∧ s.cnt + 1 + 1 = s.cfg.timeoutTicks ∧ u.cfg.ok = true ∧ u.st = .bitHigh ∧
      (Instr.symOne 0 1).wellFormed u.cfg = true ∧ u.cnt < u.cfg.timeoutTicks ∧ u.cnt + 1 = u.cfg.timeoutTicks :=
  ⟨midRun .ackHigh 998 high, midRun .bitHigh 999 high, by decide⟩

theorem witness_TooLongAPhaseRaisesTimeout :
    ∃ s u : State, s.cfg.ok = true ∧ s.st.measuring = true ∧ s.cnt < s.cfg.timeoutTicks ∧
      (Instr.symTimeout s.st.level 1000).wellFormed s.cfg = true ∧ s.cnt = 999 ∧
      u.st.measuring = true ∧ u.st.level = high ∧ u.cnt < u.cfg.timeoutTicks ∧ u.cnt = 0 :=
  ⟨midRun .ackLow 999 low, midRun .bitHigh 0 high, by decide⟩

theorem witness_FrameFillsTheRawFrame :
    ∃ s : State, s.cfg.ok = true ∧ s.st = .ackHigh ∧ 70 < s.cfg.timeoutTicks :=
  ⟨{ midRun .ackHigh 80 high with cfg := { Config.standard with timeoutTicks := 71 } }, by decide⟩

theorem witness_WaveformsTakeOneTickPerSample :
    ∃ (s : State) (i : Instr), i ∈ [Instr.symZero 2 1, .symOne 2 1, .symAck 2 1, .symTimeout low 0,
      .frame 0#8 0#8 false 0#7 0#8 0#8] ∧ s.st.resting = true ∧ i = .symTimeout low 0 :=
  ⟨finished, .symTimeout low 0, by decide⟩

theorem witness_WaveformsDecodeToWhatTheyEncode :
    small.ok = true ∧ (Instr.symZero 4 4).wellFormed small = true ∧ (Instr.symOne 0 1).wellFormed small = true ∧
    (Instr.symAck 0 4).wellFormed small = true ∧ (Instr.symTimeout high 5).wellFormed small = true ∧
    (Instr.frame 0xFF#8 0#8 true 0x7F#7 1#8 2#8).wellFormed small = true := by decide

theorem witness_StateCodesSayWhatTheyMean : (10 : Nat) ≤ (10#4).toNat ∧ St.ofCode 9#4 = some .failed := by decide

/-- A run in progress meets the invariants (V-P1 at bit position 16: bytes 0 and 1 are in, byte 2 is still 0). -/
theorem midRun_inv : Inv (midRun .bitHigh 3 low) where
  config := by decide
  idx := by decide
  cnt := by decide
  lo := by decide
  dlyWake := by decide
  dlyRelease := by decide
  dlyElse := by decide
  err := by decide
  values := by decide
  tempRange := by decide
  humRange := by decide
  success := by decide
  later := by
    intro _ _ j hj
    have h2 : 2 < j := hj
    match j, h2 with
    | 3, _ | 4, _ => rfl
    | _ + 5, _ => rfl
  filling := by decide
  handshake := by decide
  counted := by decide

/-- A finished run, a measurement at its limit and a failed run meet them. -/
theorem finished_inv : Inv finished := by
  constructor <;> first | decide | exact fun h => absurd h (by decide)

theorem limit_inv : Inv (midRun .bitLow 999 low) := by
  constructor <;> first | decide | exact midRun_inv.later

theorem failedRun_inv : Inv failedRun := by
  constructor <;> first | decide | exact fun h => absurd h (by decide)

theorem witness_EveryStepKeepsTheInvariants :
    ∃ s t : State, Inv s ∧ step s = .next t ∧ t.registers ≠ s.registers :=
  ⟨midRun .bitHigh 3 low, _, midRun_inv, rfl, by decide⟩

/-- A handshake delay in progress meets them. -/
theorem waking_inv : Inv (mk .wake 19998 0 0 0 Frame.zero low) := by
  constructor <;> first | decide | exact fun h => absurd h (by decide)

theorem releasing_inv : Inv (mk .release 38 0 0 0 Frame.zero low) := by
  constructor <;> first | decide | exact fun _ h => absurd h (by decide)

theorem witness_EveryRegisterFitsItsWidth :
    ∃ s u v w : State, Inv s ∧ s.cnt + 1 ≠ s.cfg.timeoutTicks ∧ s.idx ≠ 39 ∧ Inv u ∧ u.cnt + 1 = u.cfg.timeoutTicks ∧
      Inv v ∧ v.st = .wake ∧ v.dly + 1 ≠ v.cfg.wakeTicks ∧ Inv w ∧ w.st = .release ∧ w.dly + 1 ≠ w.cfg.releaseTicks :=
  ⟨_, _, _, _, midRun_inv, by decide, by decide, limit_inv, by decide, waking_inv, rfl, by decide,
    releasing_inv, rfl, by decide⟩

theorem witness_PortsShowOneWholeOutcome :
    ∃ s u v : State, Inv s ∧ s.outputs.measurement = .none ∧ Inv u ∧ u.outputs.measurement = .success 235 482 ∧
      Inv v ∧ v.outputs.measurement = .failed .timeout :=
  ⟨_, _, _, midRun_inv, by decide, finished_inv, by decide, failedRun_inv, by decide⟩

theorem witness_RaisingAFailureWritesOnlyStAndErr :
    (∃ s t : State, step s = .next t ∧ s.st ≠ .failed ∧ t.st = .failed ∧ t.err = .timeout ∧ Inv s) ∧
    (∃ s t : State, step s = .next t ∧ s.st ≠ .failed ∧ t.st = .failed ∧ t.err = .checksumMismatch) :=
  ⟨⟨midRun .bitLow 999 low, _, rfl, by decide, by decide, by decide, limit_inv⟩,
   ⟨validating 0x4F#8, _, rfl, by decide, by decide, by decide⟩⟩

theorem witness_FailedIsLeftOnlyByMeasureOrReset :
    ∀ rst start : Bool, ∃ s t : State, step s = .next t ∧ s.st = .failed ∧ s.present.inp.rst = rst ∧
      s.present.inp.start = start := by
  intro rst start
  exact ⟨{ failedRun with inputs := [⟨rst, start, none⟩] }, _,
    step_next _ test_config_defaults.1, rfl, rfl, rfl⟩

theorem witness_ValueRegistersHaveNoOtherWriter :
    (∃ s t : State, step s = .next t ∧ t.temp ≠ s.temp ∧ t.st = .success) ∧
    (∃ s t : State, step s = .next t ∧ t.hum ≠ s.hum ∧ t.st = .idle) :=
  ⟨⟨validating 0x4E#8, _, rfl, by decide, by decide⟩,
   ⟨{ finished with inputs := [⟨true, false, none⟩] }, _, rfl, by decide, by decide⟩⟩

theorem witness_RawFrameHasNoOtherWriter :
    (∃ s t : State, step s = .next t ∧ t.f ≠ s.f ∧ s.st = .bitHigh ∧ s.idx = 39) ∧
    (∃ s t : State, step s = .next t ∧ t.f ≠ s.f ∧ s.st = .success) :=
  ⟨⟨{ mk .bitHigh 0 70 50 39 frameP1 low with inputs := [⟨false, false, some low⟩] }, _, rfl, by decide,
      by decide, by decide⟩,
   ⟨{ finished with inputs := [⟨false, true, none⟩] }, _, rfl, by decide, by decide⟩⟩

theorem witness_LineIsReadOnlyWhileMeasuring :
    ∃ (s : State) (i : Input) (rest : List Input), s.cfg.ok = true ∧ s.st.measuring = false ∧ s.inputs = i :: rest :=
  ⟨validating 0x4E#8, _, _, by decide, by decide, rfl⟩

theorem witness_ARunDependsOnNothingBeforeIt :
    ∃ (s u : State) (i : Input) (is : List Input), s.cfg.ok = true ∧ u.cfg = s.cfg ∧ s.st.resting = true ∧
      u.st.resting = true ∧ i.rst = false ∧ i.start = true ∧ (∀ j ∈ is, j.line ≠ none) ∧ s.registers ≠ u.registers :=
  ⟨finished, failedRun, ⟨false, true, none⟩, waveInputs [low, high], by decide, rfl, by decide, by decide, rfl, rfl,
    by decide, by decide⟩

theorem witness_EveryRunEndsInTime :
    ∃ (s : State) (i : Input) (is : List Input), s.cfg.ok = true ∧ s.st.resting = true ∧ i.rst = false ∧ i.start = true ∧
      NoReset is ∧ s.cfg.longestRun ≤ is.length + 1 :=
  ⟨{ finished with cfg := small }, ⟨false, true, none⟩, List.replicate 335 ⟨false, true, none⟩, by decide, by decide, rfl,
    rfl, fun i hi => by rw [List.eq_of_mem_replicate hi], by rw [List.length_replicate]; decide⟩

/-- The premises of the statements about whole runs: AStuckLineTimesOut and TickLevelAgreesWithDurationLevel. -/
theorem witness_AStuckLineTimesOut :
    ∃ (s : State) (hs : List Input), s.cfg.ok = true ∧ s.st.resting = true ∧
      hs.length = s.cfg.wakeTicks + s.cfg.releaseTicks ∧ NoReset hs ∧ 0 < s.cfg.timeoutTicks :=
  ⟨{ finished with cfg := small }, List.replicate 4 ⟨false, true, none⟩, by decide, by decide, by decide,
    fun i hi => by rw [List.eq_of_mem_replicate hi], by decide⟩

theorem witness_TickLevelAgreesWithDurationLevel :
    ∃ (s : State) (hs : List Input) (σ : Nat → Level), s.cfg.ok = true ∧ s.st.resting = true ∧
      hs.length = s.cfg.wakeTicks + s.cfg.releaseTicks ∧ NoReset hs ∧
      measureRun s.cfg.timeoutTicks σ = .complete Frame.zero 81 ∧ 82 < (measureRun s.cfg.timeoutTicks σ).ticks :=
  ⟨{ finished with cfg := small }, List.replicate 4 ⟨false, true, none⟩, fun n => decide (n % 2 = 0), by decide, by decide,
    by decide, fun i hi => by rw [List.eq_of_mem_replicate hi], by decide, by decide⟩

theorem witness_FortySymbolsFillTheFrame :
    ∃ (s : State) (hs : List Input) (ws : List (Nat × Nat)), s.cfg.ok = true ∧ s.st.resting = true ∧
      hs.length = s.cfg.wakeTicks + s.cfg.releaseTicks ∧ NoReset hs ∧ 0 < s.cfg.timeoutTicks ∧ 4 < s.cfg.timeoutTicks ∧
      ws.length = 40 ∧ (∀ w ∈ ws, 1 ≤ w.1 ∧ w.1 < s.cfg.timeoutTicks ∧ 1 ≤ w.2 ∧ w.2 < s.cfg.timeoutTicks) ∧
      ws[0]? = some (1, 4) ∧ ws[39]? = some (4, 1) :=
  ⟨{ finished with cfg := small }, List.replicate 4 ⟨false, true, none⟩,
    List.replicate 20 (1, 4) ++ List.replicate 20 (4, 1), by decide, by decide, by decide,
    fun i hi => by rw [List.eq_of_mem_replicate hi], by decide, by decide, by decide, by decide, by decide, by decide⟩

theorem witness_NominalTraceRoundTrips :
    ∃ (s : State) (hs : List Input), s.cfg.ok = true ∧ s.st.resting = true ∧
      hs.length = s.cfg.wakeTicks + s.cfg.releaseTicks ∧ NoReset hs ∧ 80 < s.cfg.timeoutTicks :=
  ⟨{ finished with cfg := { small with timeoutTicks := 81 } }, List.replicate 4 ⟨false, true, none⟩, by decide, by decide,
    by decide, fun i hi => by rw [List.eq_of_mem_replicate hi], by decide⟩

end Sys2Proof.Tests
end

section
/-! SUPPORT. The statements of spec/00_scope.md. A run in progress is followed tick by tick: the handshake from the
acceptance of MEASURE to sample 0, then, sample by sample, the measurements of the duration level (R12). -/

namespace Sys2Proof.Machine

/-! ### O3: A step runs the command it decodes -/

/-- Settles O3. Every command word decodes to the one command `decodeCmd` names, which `step` runs under a legal
configuration; `present_cons` and `present_nil` say which input the tick takes. -/
theorem stepRunsTheDecodedCommand : Obligations.StepRunsTheDecodedCommand := by
  refine ⟨fun s i l hok hdec => ?_, fun s j js h => State.present_cons h, fun s h => State.present_nil h⟩
  have hword : [decodeCmd s.present.inp.cmd] = i :: l := Except.ok.inj hdec
  obtain ⟨rfl, rfl⟩ := List.cons.inj hword
  exact ⟨if_pos hok, rfl⟩

/-! ### O57: Every register fits its width -/

/-- `DLY` fits its width: it stays below the limit of the delay it counts, and is 0 elsewhere (R39). -/
theorem Inv.dly_lt {s : State} (h : Inv s) : s.dly < 2 ^ s.cfg.wDly := by
  obtain ⟨-, -, -, hwake, -, hrelease, -, -⟩ := config_ok_bounds h.config
  by_cases hw : s.st = .wake
  · have := h.dlyWake hw
    omega
  by_cases hr : s.st = .release
  · have := h.dlyRelease hr
    omega
  · rw [h.dlyElse hw hr]
    exact Nat.two_pow_pos _

/-- The pattern on the port `hum` denotes `HUM`. -/
theorem Inv.humPattern_toNat {s : State} (h : Inv s) : s.humPattern.toNat = s.hum := by
  have hfit := config_wVal_bound h.config
  have hrange := h.humRange
  rw [State.humPattern, BitVec.toNat_ofNat]
  exact trunc_of_lt (by omega)

/-- The pattern on the port `temp`, read as two's complement, denotes `TEMP`. -/
theorem Inv.tempPattern_toInt {s : State} (h : Inv s) : s.tempPattern.toInt = s.temp := by
  have hfit := config_wVal_bound h.config
  have hrange := h.tempRange
  rw [State.tempPattern, BitVec.toInt_ofInt]
  exact truncSigned_of_natAbs_lt (by omega)

/-- Settles O57. Each bound of the invariant lies below the limit that R8 makes the register's width hold. -/
theorem everyRegisterFitsItsWidth : Obligations.EveryRegisterFitsItsWidth := by
  intro s h
  obtain ⟨-, hcntW, -, hwakeW, -, hreleaseW, hidxW, -⟩ := config_ok_bounds h.config
  have hidx := h.idx
  have hcnt := h.cnt
  have hlo := h.lo
  refine ⟨by omega, h.dly_lt, by omega, by omega, h.humPattern_toNat, h.tempPattern_toInt,
    fun hst hne => ?_, fun hst hne => ?_, fun hne => trunc_of_lt (by omega), fun hne => trunc_of_lt (by omega),
    Frame.trunc_humidity h.config s.f, Frame.truncSigned_temperature h.config s.f⟩
  · have := h.dlyWake hst
    exact trunc_of_lt (by omega)
  · have := h.dlyRelease hst
    exact trunc_of_lt (by omega)

/-! ### A tick of a run in progress -/

/-- Without reset, the tick of a busy state is the state's own transition (R103, R104). -/
theorem State.tickEnd_busy {s : State} (hr : s.inp.rst = false) (hb : s.st.resting = false) :
    s.tickEnd = s.ownTick := by
  simp [State.tickEnd, hr, hb]

/-- In a resting state `start` without reset accepts MEASURE (R102). -/
theorem State.tickEnd_accept {s : State} (hr : s.inp.rst = false) (hs : s.inp.start = true)
    (hq : s.st.resting = true) : s.tickEnd = s.accept := by
  simp [State.tickEnd, hr, hs, hq]

theorem noReset_cons {i : Input} {is : List Input} : NoReset (i :: is) ↔ i.rst = false ∧ NoReset is :=
  List.forall_mem_cons

/-! ### The handshake -/

/-- A delay that counts `DLY` up and leaves at its last count takes the rest of its ticks, whatever the host's `start` and
the line do. -/
theorem State.after_delay {c : Config} {x : St} {limit : Nat} {leave : Registers → Registers}
    (hbusy : x.resting = false)
    (hcount : ∀ u : State, u.cfg = c → u.st = x → u.dly + 1 < limit →
      u.ownTick.registers = { u.registers with dly := u.dly + 1 })
    (hlast : ∀ u : State, u.cfg = c → u.st = x → u.dly + 1 = limit → u.ownTick.registers = leave u.registers)
    (s : State) (is : List Input) (hc : s.cfg = c) (hst : s.st = x) (hlt : s.dly < limit)
    (hlen : s.dly + is.length = limit) (hnr : NoReset is) :
    (s.after is).registers = leave { s.registers with dly := limit - 1 } := by
  induction is generalizing s with
  | nil => simp at hlen; omega
  | cons i is ih =>
    obtain ⟨hrst, hnr⟩ := noReset_cons.mp hnr
    rw [List.length_cons] at hlen
    rw [State.after_cons, State.tickEnd_busy hrst (by simpa [hst] using hbusy)]
    by_cases hend : s.dly + 1 = limit
    · obtain rfl : is = [] := List.length_eq_zero_iff.mp (by omega)
      have hdly : limit - 1 = s.dly := by omega
      rw [State.after_nil, hlast (s.withInput i) hc hst hend, hdly]
      rfl
    · have hregs := hcount (s.withInput i) hc hst (by simp; omega)
      obtain ⟨hst', hdly⟩ : (s.withInput i).ownTick.st = x ∧ (s.withInput i).ownTick.dly = s.dly + 1 :=
        ⟨(congrArg Registers.st hregs).trans hst, congrArg Registers.dly hregs⟩
      rw [ih _ (by simpa using hc) hst' (by omega) (by omega) hnr, hregs]
      rfl

/-- WAKE lasts `WAKE_TICKS` from its first tick and leads to RELEASE (R110). -/
theorem State.after_wake {s : State} {is : List Input} (hok : s.cfg.ok = true) (hst : s.st = .wake) (hdly : s.dly = 0)
    (hlen : is.length = s.cfg.wakeTicks) (hnr : NoReset is) :
    (s.after is).registers = { s.registers with st := .release, dly := 0 } := by
  obtain ⟨-, -, hpos, hfit, -⟩ := config_ok_bounds hok
  refine State.after_delay (limit := s.cfg.wakeTicks) (leave := fun r => { r with st := .release, dly := 0 })
    (x := .wake) rfl ?_ ?_ s is rfl hst (by omega) (by omega) hnr
  · intro u hc hu hlt
    have hcut : trunc s.cfg.wDly (u.dly + 1) = u.dly + 1 := trunc_of_lt (by omega)
    simp [u.ownTick_wake hu, State.wakeTick, State.wakeDone, hcut, hc, hlt.ne]
  · intro u hc hu hlast
    simp [u.ownTick_wake hu, State.wakeTick, State.wakeDone, hc, hlast]

/-- RELEASE lasts `RELEASE_TICKS` from its first tick and leads to ACK_LOW with nothing counted (R111). -/
theorem State.after_release {s : State} {is : List Input} (hok : s.cfg.ok = true) (hst : s.st = .release)
    (hdly : s.dly = 0) (hlen : is.length = s.cfg.releaseTicks) (hnr : NoReset is) :
    (s.after is).registers = { s.registers with st := .ackLow, dly := 0, cnt := 0 } := by
  obtain ⟨-, -, -, -, hpos, hfit, -⟩ := config_ok_bounds hok
  refine State.after_delay (limit := s.cfg.releaseTicks)
    (leave := fun r => { r with st := .ackLow, dly := 0, cnt := 0 }) (x := .release) rfl ?_ ?_
    s is rfl hst (by omega) (by omega) hnr
  · intro u hc hu hlt
    have hcut : trunc s.cfg.wDly (u.dly + 1) = u.dly + 1 := trunc_of_lt (by omega)
    simp [u.ownTick_release hu, State.releaseTick, State.releaseDone, hcut, hc, hlt.ne]
  · intro u hc hu hlast
    simp [u.ownTick_release hu, State.releaseTick, State.releaseDone, hc, hlast]

/-- From the acceptance of MEASURE in any resting state to sample 0: ACK_LOW, every other register clear (R102, R113). -/
theorem State.after_handshake {s : State} (line : Option Level) {hs : List Input} (hok : s.cfg.ok = true)
    (hq : s.st.resting = true) (hlen : hs.length = s.cfg.wakeTicks + s.cfg.releaseTicks) (hnr : NoReset hs) :
    (s.after (⟨false, true, line⟩ :: hs)).registers = { State.reset.registers with st := .ackLow } := by
  obtain ⟨ws, rs, rfl, hws⟩ : ∃ ws rs, hs = ws ++ rs ∧ ws.length = s.cfg.wakeTicks :=
    ⟨_, _, (List.take_append_drop s.cfg.wakeTicks hs).symm, by simp; omega⟩
  have hrs : rs.length = s.cfg.releaseTicks := by
    rw [List.length_append] at hlen
    omega
  obtain ⟨hnw, hnr⟩ : NoReset ws ∧ NoReset rs := List.forall_mem_append.mp hnr
  rw [State.after_cons, State.tickEnd_accept (s := s.withInput _) rfl rfl hq, State.after_append]
  have hwake := State.after_wake (s := (s.withInput ⟨false, true, line⟩).accept) hok rfl rfl hws hnw
  rw [State.after_release (by simpa using hok) (congrArg Registers.st hwake) (congrArg Registers.dly hwake)
    (by simpa using hrs) hnr, hwake]
  rfl

/-! ### What one sample does to the registers -/

/-- A sample at the level being measured is counted (R121, R122, R124). -/
theorem State.ownTick_matching {s : State} (hm : s.st.measuring = true) (hs : s.sample = s.st.level) :
    s.ownTick = s.countSample := by
  rcases (St.measuring_iff s.st).mp hm with h | h | h | h <;> rw [h] at hs
  · rw [s.ownTick_ackLow h, s.lowTick_low _ hs]
  · rw [s.ownTick_ackHigh h, s.ackHighTick_high hs]
  · rw [s.ownTick_bitLow h, s.lowTick_low _ hs]
  · rw [s.ownTick_bitHigh h, s.bitHighTick_high hs]

/-- A high sample ends a low phase (R121). -/
theorem State.ownTick_endLow {s : State} {data : Bool} (h : s.st = St.measure data low) (hs : s.sample = high) :
    s.ownTick = s.endLow (St.measure data high) := by
  cases data
  · rw [s.ownTick_ackLow h, s.lowTick_high _ hs]; rfl
  · rw [s.ownTick_bitLow h, s.lowTick_high _ hs]; rfl

/-! ### The outcome on the ports -/

/-- In SUCCESS the host reads the two values (R41). -/
theorem State.measurement_success {s : State} (hst : s.st = .success) (herr : s.err = .none) :
    s.outputs.measurement = .success s.temp s.hum := by
  simp [State.outputs, Outputs.measurement, State.done, hst, herr, Err.code]

/-- In FAILED the host reads the failure kind (R41). -/
theorem State.measurement_failed {s : State} (k : Failure) (hst : s.st = .failed) (herr : s.err = k.err) :
    s.outputs.measurement = .failed k := by
  cases k <;> simp [State.outputs, Outputs.measurement, State.done, hst, herr, Failure.err, Err.code]

/-- The tick of VALIDATE shows the outcome that the duration level gives a complete frame (R101, R141). -/
theorem State.ownTick_validate_outcome {s : State} (pos : Nat) (hok : s.cfg.ok = true) (hst : s.st = .validate)
    (herr : s.err = .none) :
    s.ownTick.outputs.measurement = (RunEnd.complete s.f pos).measurement ∧ s.ownTick.f = s.f := by
  cases hc : s.checksumOk
  · have hne : s.f.sum ≠ s.f.csum := by simpa [State.checksumOk] using hc
    rw [s.ownTick_validate_differ hst hc, RunEnd.measurement, if_neg hne]
    exact ⟨State.measurement_failed .checksumMismatch rfl rfl, rfl⟩
  · have heq : s.f.sum = s.f.csum := by simpa [State.checksumOk] using hc
    rw [s.ownTick_validate_match hst hc, RunEnd.measurement, if_pos heq, Frame.trunc_humidity hok,
      Frame.truncSigned_temperature hok]
    exact ⟨State.measurement_success rfl herr, rfl⟩

/-! ### How a run ends, sample by sample -/

/-- The block with sample `pos` on the line and the host's `start`, after its tick. -/
def State.onSample (start : Nat → Bool) (σ : Nat → Level) (pos : Nat) (s : State) : State :=
  (s.withInput ⟨false, start pos, some (σ pos)⟩).tickEnd

/-- `EndsAs start σ e pos s`: from the state `s`, reached before sample `pos`, the block goes on being busy, one tick on each
sample of `σ`, until the tick at which `e` says the run ends (R210); there it shows the outcome and the Raw Frame of `e`. -/
inductive EndsAs (start : Nat → Bool) (σ : Nat → Level) (e : RunEnd) : Nat → State → Prop
  | ended {s : State} (hm : s.outputs.measurement = e.measurement) (hf : s.f = e.frame) : EndsAs start σ e e.ticks s
  | busy {pos : Nat} {s : State} (hb : s.busy = true) (h : EndsAs start σ e (pos + 1) (s.onSample start σ pos)) :
      EndsAs start σ e pos s

/-- The inputs of `samplesOf` from sample `pos` on. -/
def samplesFrom (start : Nat → Bool) (σ : Nat → Level) (pos n : Nat) : List Input :=
  (List.range' pos n).map fun j => ⟨false, start j, some (σ j)⟩

theorem samplesOf_eq (start : Nat → Bool) (σ : Nat → Level) (n : Nat) :
    samplesOf start σ n = samplesFrom start σ 0 n := by
  rw [samplesOf, samplesFrom, List.range_eq_range']

/-- What `EndsAs` says of the run over the samples. -/
theorem EndsAs.after {start : Nat → Bool} {σ : Nat → Level} {e : RunEnd} {pos : Nat} {s : State}
    (h : EndsAs start σ e pos s) :
    ∃ k, e.ticks = pos + k ∧
      (s.after (samplesFrom start σ pos k)).outputs.measurement = e.measurement ∧
      (s.after (samplesFrom start σ pos k)).f = e.frame ∧
      ∀ n, n < k → (s.after (samplesFrom start σ pos n)).busy = true := by
  induction h with
  | ended hm hf => exact ⟨0, rfl, hm, hf, fun n hn => absurd hn (Nat.not_lt_zero n)⟩
  | busy hb _ ih =>
    obtain ⟨k, hk, hm, hf, hbusy⟩ := ih
    refine ⟨k + 1, by omega, hm, hf, fun n hn => ?_⟩
    cases n with
    | zero => exact hb
    | succ n => exact hbusy n (Nat.lt_of_succ_lt_succ hn)

section
variable {start : Nat → Bool} {σ : Nat → Level} {e : RunEnd} {c : Config} {pos : Nat} {r : Registers}

/-- `EndsAs` for every state with given parameters and registers: the rest of the state has no part in it. -/
def RegistersEndAs (start : Nat → Bool) (σ : Nat → Level) (c : Config) (e : RunEnd) (pos : Nat) (r : Registers) : Prop :=
  ∀ s : State, s.cfg = c → s.registers = r → EndsAs start σ e pos s

/-- Going back over one tick of a busy state: its own transition leads to registers from which the run ends as said. -/
theorem RegistersEndAs.tick (r' : Registers) (hb : r.st.resting = false)
    (htick : ∀ s : State, s.cfg = c → s.registers = r → s.sample = σ pos → s.ownTick.registers = r')
    (h : RegistersEndAs start σ c e (pos + 1) r') : RegistersEndAs start σ c e pos r := by
  rintro s rfl rfl
  have hown : s.onSample start σ pos = (s.withInput ⟨false, start pos, some (σ pos)⟩).ownTick :=
    State.tickEnd_busy rfl hb
  refine .busy (by rw [State.busy_eq]; exact congrArg not hb) (h _ (by rw [hown]; simp) ?_)
  rw [hown]
  exact htick (s.withInput _) rfl rfl rfl

/-- A measuring state is busy. -/
theorem St.resting_of_measuring {x : St} (h : x.measuring = true) : x.resting = false := by
  rcases (St.measuring_iff x).mp h with rfl | rfl | rfl | rfl <;> rfl

/-- A sample at the level being measured, below the limit, adds one to `CNT` (R121, R122). -/
theorem RegistersEndAs.count (hok : c.ok = true) (hm : r.st.measuring = true) (hs : σ pos = r.st.level)
    (hlt : r.cnt + 1 < c.timeoutTicks) (h : RegistersEndAs start σ c e (pos + 1) { r with cnt := r.cnt + 1 }) :
    RegistersEndAs start σ c e pos r := by
  refine .tick _ (St.resting_of_measuring hm) ?_ h
  rintro s rfl rfl hσ
  obtain ⟨-, hfit, -⟩ := config_ok_bounds hok
  have hlt : s.cnt + 1 < s.cfg.timeoutTicks := hlt
  rw [State.ownTick_matching hm (hσ.trans hs), s.countSample_below hlt.ne, trunc_of_lt (by omega)]
  rfl

/-- The `TIMEOUT_TICKS`-th sample at the level being measured ends the run with Timeout (R124). -/
theorem RegistersEndAs.timeout (hm : r.st.measuring = true) (hs : σ pos = r.st.level)
    (hlast : r.cnt + 1 = c.timeoutTicks) : RegistersEndAs start σ c (.timeout r.f pos) pos r := by
  refine .tick { r with st := .failed, err := .timeout } (St.resting_of_measuring hm) ?_ ?_
  · rintro s rfl rfl hσ
    rw [State.ownTick_matching hm (hσ.trans hs), s.countSample_last hlast]
    rfl
  · intro t _ hreg
    have hst : t.st = .failed := congrArg Registers.st hreg
    have herr : t.err = .timeout := congrArg Registers.err hreg
    exact .ended (e := .timeout r.f pos) (State.measurement_failed .timeout hst herr) (congrArg Registers.f hreg)

/-- A high sample ends a low phase: its count is latched, and the sample counts for the high phase (R121, R123). -/
theorem RegistersEndAs.endLow {data : Bool} (hst : r.st = St.measure data low) (hs : σ pos = high)
    (h : RegistersEndAs start σ c e (pos + 1) { r with lo := r.cnt, cnt := 1, st := St.measure data high }) :
    RegistersEndAs start σ c e pos r := by
  refine .tick _ (St.resting_of_measuring (by rw [hst]; exact St.measure_measuring _ _)) ?_ h
  rintro s rfl rfl hσ
  rw [State.ownTick_endLow hst (hσ.trans hs)]
  rfl

/-- A low sample ends the acknowledgement's high phase (R112). -/
theorem RegistersEndAs.endAck (hst : r.st = .ackHigh) (hs : σ pos = low)
    (h : RegistersEndAs start σ c e (pos + 1) { r with cnt := 1, idx := 0, st := .bitLow }) :
    RegistersEndAs start σ c e pos r := by
  refine .tick _ (by rw [hst]; rfl) ?_ h
  rintro s rfl rfl hσ
  rw [s.ownTick_ackHigh hst, s.ackHighTick_low (hσ.trans hs)]
  rfl

/-- A low sample ends a data bit's high phase before position 39: the bit enters the frame and the next position is
measured (R127, R128). -/
theorem RegistersEndAs.endBit (hok : c.ok = true) (hst : r.st = .bitHigh) (hs : σ pos = low) (hidx : r.idx < 39)
    (h : RegistersEndAs start σ c e (pos + 1)
      { r with f := r.f.shiftBit r.idx (decide (r.lo < r.cnt)), idx := r.idx + 1, cnt := 1, st := .bitLow }) :
    RegistersEndAs start σ c e pos r := by
  refine .tick _ (by rw [hst]; rfl) ?_ h
  rintro s rfl rfl hσ
  obtain ⟨-, -, -, -, -, -, hfit, -⟩ := config_ok_bounds hok
  have hidx : s.idx < 39 := hidx
  rw [s.ownTick_bitHigh hst, s.bitHighTick_low (hσ.trans hs), State.nextBit, if_neg (show s.shiftIn.idx ≠ 39 from hidx.ne),
    trunc_of_lt (by simp; omega)]
  rfl

/-- A low sample ends the last data bit's high phase: the bit enters the frame and VALIDATE follows (R128). -/
theorem RegistersEndAs.endLastBit (hst : r.st = .bitHigh) (hs : σ pos = low) (hidx : r.idx = 39)
    (h : RegistersEndAs start σ c e (pos + 1)
      { r with f := r.f.shiftBit r.idx (decide (r.lo < r.cnt)), st := .validate }) :
    RegistersEndAs start σ c e pos r := by
  refine .tick _ (by rw [hst]; rfl) ?_ h
  rintro s rfl rfl hσ
  rw [s.ownTick_bitHigh hst, s.bitHighTick_low (hσ.trans hs), State.nextBit,
    if_pos (show s.shiftIn.idx = 39 from hidx)]
  rfl

/-- The tick of VALIDATE ends the run with the outcome of a complete frame (R141). -/
theorem RegistersEndAs.validate (hok : c.ok = true) (hst : r.st = .validate) (herr : r.err = .none) :
    RegistersEndAs start σ c (.complete r.f pos) (pos + 1) r := by
  rintro s rfl rfl
  have hst : s.st = .validate := hst
  have hown : s.onSample start σ (pos + 1) = (s.withInput ⟨false, start (pos + 1), some (σ (pos + 1))⟩).ownTick :=
    State.tickEnd_busy rfl (by rw [State.withInput_st, hst]; rfl)
  obtain ⟨hm, hf⟩ := State.ownTick_validate_outcome (s := s.withInput ⟨false, start (pos + 1), some (σ (pos + 1))⟩) pos
    hok hst herr
  exact .busy (by rw [State.busy_eq, hst]; rfl) (hown ▸ .ended (e := .complete s.f pos) hm hf)

/-! ### The duration level, measurement by measurement -/

/-- What a run makes of the end of a measurement: Timeout ends it with the frame filled so far, a duration is used. -/
def PulseEnd.andThen (f : Frame) (use : (duration pos : Nat) → RunEnd) : PulseEnd → RunEnd
  | .timeout j => .timeout f j
  | .measured d j => use d j

@[simp] theorem PulseEnd.andThen_timeout (f : Frame) (use : (duration pos : Nat) → RunEnd) (j : Nat) :
    (PulseEnd.timeout j).andThen f use = .timeout f j := rfl

@[simp] theorem PulseEnd.andThen_measured (f : Frame) (use : (duration pos : Nat) → RunEnd) (d j : Nat) :
    (PulseEnd.measured d j).andThen f use = use d j := rfl

/-- A bit-read cycle is a low measurement and then a high one (R112, R125). -/
theorem readCycle_eq (limit : Nat) (σ : Nat → Level) (pos : Nat) (f : Frame) (use : (lo hi pos : Nat) → RunEnd) :
    readCycle limit σ pos f use =
      (pulse limit low σ pos).andThen f fun lo pos₁ => (pulse limit high σ pos₁).andThen f (use lo) := by
  unfold readCycle
  cases pulse limit low σ pos with
  | timeout j => rfl
  | measured lo pos₁ => cases h : pulse limit high σ pos₁ <;> simp [h]

/-- A measurement that begins at its own level has counted that sample (R120, R123). -/
theorem pulse_eq_of_sample {limit : Nat} {level : Level} (hlim : 2 ≤ limit) (hs : σ pos = level) :
    pulse limit level σ pos = pulseLoop limit level σ (limit - 1) 1 (pos + 1) := by
  obtain ⟨k, rfl⟩ : ∃ k, limit = k + 2 := ⟨limit - 2, by omega⟩
  simp [pulse, pulseLoop, hs]

/-- MEASURING A PHASE: if the run ends as `use` says from the end of the phase on, whatever its duration, then it ends as the
duration level says from any sample of the phase on. -/
theorem RegistersEndAs.phase {level : Level} {use : (duration pos : Nat) → RunEnd} {fuel : Nat} (hok : c.ok = true)
    (hm : r.st.measuring = true) (hl : r.st.level = level) (hfuel : r.cnt + fuel = c.timeoutTicks)
    (hlt : r.cnt < c.timeoutTicks)
    (hend : ∀ d j, σ j ≠ level → RegistersEndAs start σ c (use d j) j { r with cnt := d }) :
    RegistersEndAs start σ c ((pulseLoop c.timeoutTicks level σ fuel r.cnt pos).andThen r.f use) pos r := by
  induction fuel generalizing pos r with
  | zero => omega
  | succ fuel ih =>
    by_cases hs : σ pos ≠ level
    · rw [pulseLoop, if_pos hs]
      exact hend r.cnt pos hs
    · have hs' : σ pos = r.st.level := (not_not.mp hs).trans hl.symm
      rw [pulseLoop, if_neg hs]
      by_cases hlast : r.cnt + 1 = c.timeoutTicks
      · rw [if_pos hlast]
        exact .timeout hm hs' hlast
      · have hlt' : r.cnt + 1 < c.timeoutTicks := by omega
        rw [if_neg hlast]
        exact .count hok hm hs' hlt' (ih (r := { r with cnt := r.cnt + 1 }) hm hl (by simp; omega) hlt' hend)

/-- A BIT-READ CYCLE, from any sample of its low phase on: if the run ends as `use` says from the end of the high phase on,
whatever the two durations, then it ends as the duration level says. -/
theorem RegistersEndAs.cycle {use : (lo hi pos : Nat) → RunEnd} {fuel n : Nat} {data : Bool} (hok : c.ok = true)
    (hst : r.st = St.measure data low) (hcnt : r.cnt = n) (hfuel : n + fuel = c.timeoutTicks) (hlt : n < c.timeoutTicks)
    (hend : ∀ lo hi j, σ j = low →
      RegistersEndAs start σ c (use lo hi j) j { r with st := St.measure data high, lo := lo, cnt := hi }) :
    RegistersEndAs start σ c ((pulseLoop c.timeoutTicks low σ fuel n pos).andThen r.f
      fun lo pos₁ => (pulse c.timeoutTicks high σ pos₁).andThen r.f (use lo)) pos r := by
  subst hcnt
  obtain ⟨hlim, -⟩ := config_ok_bounds hok
  refine .phase hok (by rw [hst, St.measure_measuring]) (by rw [hst, St.measure_level]) hfuel hlt fun lo pos₁ hpos₁ => ?_
  have hhigh : σ pos₁ = high := by simpa using hpos₁
  refine .endLow (data := data) hst hhigh ?_
  rw [pulse_eq_of_sample hlim hhigh]
  exact .phase (r := { r with lo := lo, cnt := 1, st := St.measure data high }) hok (St.measure_measuring _ _)
    (St.measure_level _ _) (by simp; omega) (by simp; omega) fun hi j hj => hend lo hi j (by simpa using hj)

/-- THE BITS from position `IDX` on: the low sample that ended the phase before is counted, and the run ends as the duration
level says from that sample on. -/
theorem RegistersEndAs.bits {left : Nat} (hok : c.ok = true) (hst : r.st = .bitLow) (hcnt : r.cnt = 1)
    (hidx : r.idx + left = 39) (herr : r.err = .none) (hs : σ pos = low) :
    RegistersEndAs start σ c (readBits c.timeoutTicks σ (left + 1) r.idx pos r.f) (pos + 1) r := by
  obtain ⟨hlim, -⟩ := config_ok_bounds hok
  induction left generalizing pos r with
  | zero =>
    rw [readBits, readCycle_eq, pulse_eq_of_sample hlim hs]
    refine .cycle (data := true) hok hst hcnt (by omega) (by omega) fun lo hi j hj => .endLastBit rfl hj hidx ?_
    exact .validate hok rfl herr
  | succ left ih =>
    rw [readBits, readCycle_eq, pulse_eq_of_sample hlim hs]
    refine .cycle (data := true) hok hst hcnt (by omega) (by omega) fun lo hi j hj => .endBit hok rfl hj (by simp; omega) ?_
    exact ih
      (r := { r with f := r.f.shiftBit r.idx (decide (lo < hi)), idx := r.idx + 1, cnt := 1, st := .bitLow, lo := lo })
      rfl rfl (by simp; omega) herr hj

/-- THE RUN from sample 0: in ACK_LOW with every other register clear, it ends as `measureRun` says. -/
theorem RegistersEndAs.run (hok : c.ok = true) :
    RegistersEndAs start σ c (measureRun c.timeoutTicks σ) 0 { State.reset.registers with st := .ackLow } := by
  obtain ⟨hlim, -⟩ := config_ok_bounds hok
  rw [measureRun, readCycle_eq]
  exact .cycle (data := false) hok rfl rfl (Nat.zero_add _) (Nat.lt_of_lt_of_le Nat.two_pos hlim) fun lo hi j hj =>
    .endAck rfl hj (.bits hok rfl rfl rfl rfl hj)

end

/-- Settles O54. The handshake leaves ACK_LOW before sample 0; from there `RegistersEndAs.run` follows the duration level
sample by sample. -/
theorem tickLevelAgreesWithDurationLevel : Obligations.TickLevelAgreesWithDurationLevel := by
  intro s line hs start σ hok hq hlen hnr
  have hends := RegistersEndAs.run (start := start) (σ := σ) hok (s.after (⟨false, true, line⟩ :: hs))
    (State.after_cfg _ _) (State.after_handshake line hok hq hlen hnr)
  obtain ⟨k, hk, hmeas, hframe, hbusy⟩ := hends.after
  obtain rfl : (measureRun s.cfg.timeoutTicks σ).ticks = k := hk.trans (Nat.zero_add k)
  have hrun : ∀ n, runOn s (measureInputs line hs (samplesOf start σ n)) =
      .next (((s.after (⟨false, true, line⟩ :: hs)).after (samplesFrom start σ 0 n)).setInputs []) := by
    intro n
    rw [runOn_eq s _ hok, samplesOf_eq, measureInputs, State.after_append]
  exact ⟨⟨_, hrun _, hmeas, hframe⟩, fun n hn => ⟨_, hrun n, hbusy n hn⟩⟩

end Sys2Proof.Machine
end

section
/-! SUPPORT. The statements of spec/10_state.md. The transition table of R34 is said once, as a relation with one constructor
per row; the invariants of R39 and the claims about who writes a register are read off its rows. -/

namespace Sys2Proof.Machine

/-! ### Presenting an input writes no register -/

@[simp] theorem State.present_idx (s : State) : s.present.idx = s.idx := congrArg Registers.idx s.present_frame.1
@[simp] theorem State.present_dly (s : State) : s.present.dly = s.dly := congrArg Registers.dly s.present_frame.1
@[simp] theorem State.present_cnt (s : State) : s.present.cnt = s.cnt := congrArg Registers.cnt s.present_frame.1
@[simp] theorem State.present_lo (s : State) : s.present.lo = s.lo := congrArg Registers.lo s.present_frame.1
@[simp] theorem State.present_f (s : State) : s.present.f = s.f := congrArg Registers.f s.present_frame.1
@[simp] theorem State.present_err (s : State) : s.present.err = s.err := congrArg Registers.err s.present_frame.1
@[simp] theorem State.present_temp (s : State) : s.present.temp = s.temp := congrArg Registers.temp s.present_frame.1
@[simp] theorem State.present_hum (s : State) : s.present.hum = s.hum := congrArg Registers.hum s.present_frame.1

/-! ### The rows of the transition table -/

/-- `TableRow s t`: the state's own transition from `s` is a row of the table of R34 that leads to `t`; each constructor names
the row's condition and writes out all that its tick does. -/
inductive TableRow (s : State) : State → Prop
  | rest (hq : s.st.resting = true) : TableRow s s
  | wakeCount (hst : s.st = .wake) (hne : s.dly + 1 ≠ s.cfg.wakeTicks) :
      TableRow s { s with dly := trunc s.cfg.wDly (s.dly + 1) }
  | wakeEnd (hst : s.st = .wake) (hlast : s.dly + 1 = s.cfg.wakeTicks) :
      TableRow s { s with st := .release, dly := 0 }
  | releaseCount (hst : s.st = .release) (hne : s.dly + 1 ≠ s.cfg.releaseTicks) :
      TableRow s { s with dly := trunc s.cfg.wDly (s.dly + 1) }
  | releaseEnd (hst : s.st = .release) (hlast : s.dly + 1 = s.cfg.releaseTicks) :
      TableRow s { s with st := .ackLow, dly := 0, cnt := 0 }
  | count (hm : s.st.measuring = true) (hs : s.sample = s.st.level) (hne : s.cnt + 1 ≠ s.cfg.timeoutTicks) :
      TableRow s { s with cnt := trunc s.cfg.wCnt (s.cnt + 1) }
  | timeout (hm : s.st.measuring = true) (hs : s.sample = s.st.level) (hlast : s.cnt + 1 = s.cfg.timeoutTicks) :
      TableRow s (s.raise .timeout)
  | endLow (data : Bool) (hst : s.st = St.measure data low) (hs : s.sample = high) :
      TableRow s (s.endLow (St.measure data high))
  | endAck (hst : s.st = .ackHigh) (hs : s.sample = low) : TableRow s s.endAck
  | nextBit (hst : s.st = .bitHigh) (hs : s.sample = low) (hne : s.idx ≠ 39) :
      TableRow s { s.shiftIn with idx := trunc s.cfg.wIdx (s.idx + 1), cnt := 1, st := .bitLow }
  | lastBit (hst : s.st = .bitHigh) (hs : s.sample = low) (hlast : s.idx = 39) :
      TableRow s { s.shiftIn with st := .validate }
  | success (hst : s.st = .validate) (hc : s.f.sum = s.f.csum) :
      TableRow s { s with
        hum := trunc s.cfg.wVal s.f.humidity, temp := truncSigned s.cfg.wVal s.f.temperature, st := .success }
  | mismatch (hst : s.st = .validate) (hc : s.f.sum ≠ s.f.csum) : TableRow s (s.raise .checksumMismatch)

/-- A sample at the measured level takes the row of Timeout or the row that counts it. -/
theorem TableRow.matching {s : State} (hm : s.st.measuring = true) (hs : s.sample = s.st.level) :
    TableRow s s.ownTick := by
  rw [State.ownTick_matching hm hs]
  rcases s.countSample_cases with ⟨hlast, h⟩ | ⟨hne, h⟩ <;> rw [h]
  · exact .timeout hm hs hlast
  · exact .count hm hs hne

/-- A low phase takes the row that ends it at a high sample. -/
theorem TableRow.lowPhase {s : State} {data : Bool} (hst : s.st = St.measure data low) : TableRow s s.ownTick := by
  cases hs : s.sample
  · exact .matching (by rw [hst, St.measure_measuring]) (by rw [hst, St.measure_level, hs])
  · rw [State.ownTick_endLow hst hs]
    exact .endLow data hst hs

/-- The state's own transition is always a row of the table. -/
theorem State.ownTick_row (s : State) : TableRow s s.ownTick := by
  cases hst : s.st with
  | idle | success | failed =>
    have hq : s.st.resting = true := by rw [hst]; rfl
    rw [s.ownTick_resting hq]
    exact .rest hq
  | wake =>
    rw [s.ownTick_wake hst, State.wakeTick, State.wakeDone]
    split <;> rename_i h
    · exact .wakeEnd hst (of_decide_eq_true h)
    · exact .wakeCount hst (by simpa using h)
  | release =>
    rw [s.ownTick_release hst, State.releaseTick, State.releaseDone]
    split <;> rename_i h
    · exact .releaseEnd hst (of_decide_eq_true h)
    · exact .releaseCount hst (by simpa using h)
  | ackLow => exact .lowPhase (data := false) hst
  | bitLow => exact .lowPhase (data := true) hst
  | ackHigh =>
    cases hs : s.sample
    · rw [s.ownTick_ackHigh hst, s.ackHighTick_low hs]
      exact .endAck hst hs
    · exact .matching (by rw [hst]; rfl) (by rw [hst, hs]; rfl)
  | bitHigh =>
    cases hs : s.sample
    · rw [s.ownTick_bitHigh hst, s.bitHighTick_low hs]
      rcases s.shiftIn.nextBit_cases with ⟨hlast, h⟩ | ⟨hne, h⟩ <;> rw [h]
      · exact .lastBit hst hs hlast
      · exact .nextBit hst hs hne
    · exact .matching (by rw [hst]; rfl) (by rw [hst, hs]; rfl)
  | validate =>
    cases hc : s.checksumOk
    · rw [s.ownTick_validate_differ hst hc]
      exact .mismatch hst (by simpa [State.checksumOk] using hc)
    · rw [s.ownTick_validate_match hst hc]
      exact .success hst (by simpa [State.checksumOk] using hc)

/-- What a step that answers a state has done: reset, acceptance of MEASURE, or a row of the table, once the input is on the
ports. -/
theorem step_rows {s t : State} (h : step s = .next t) :
    s.cfg.ok = true ∧
    ((s.present.inp.rst = true ∧ t = s.present.resetRegisters) ∨
     (s.present.inp.rst = false ∧ s.present.inp.start = true ∧ s.st.resting = true ∧ t = s.present.accept) ∨
     (s.present.inp.rst = false ∧ (s.present.inp.start = false ∨ s.st.resting = false) ∧ TableRow s.present t)) := by
  obtain ⟨hok, hreset | haccept | ⟨hr, hown, rfl⟩⟩ := step_cases h
  · exact ⟨hok, .inl hreset⟩
  · exact ⟨hok, .inr (.inl haccept)⟩
  · exact ⟨hok, .inr (.inr ⟨hr, hown, s.present.ownTick_row⟩)⟩

/-! ### O44, O43: The invariants -/

/-- The Raw Frame with its first `p` bits in: the byte being filled has had `p mod 8` shifts, the bytes after it none (the
clauses `filling` and `later` of `Inv`). -/
structure Frame.FilledTo (f : Frame) (p : Nat) : Prop where
  later : ∀ j, p / 8 < j → f.get j = 0#8
  filling : (f.get (p / 8)).toNat < 2 ^ (p % 8)

/-- A clear frame has no bit in. -/
theorem Frame.FilledTo.zero : Frame.zero.FilledTo 0 where
  later j _ := Frame.get_zero j
  filling := by decide

/-- A byte of fewer than `2 ^ n` values is one of fewer than `2 ^ (n + 1)` after a shift (R127). -/
theorem shiftByte_toNat_lt {v : Byte} {n : Nat} (b : Bool) (hv : v.toNat < 2 ^ n) :
    ((v <<< 1) ||| (BitVec.ofBool b).setWidth 8).toNat < 2 ^ (n + 1) := by
  refine Nat.lt_pow_two_of_testBit _ fun i hi => ?_
  have hbit : v.getLsbD (i - 1) = false :=
    Nat.testBit_lt_two_pow (hv.trans_le (Nat.pow_le_pow_right Nat.two_pos (by omega)))
  rw [BitVec.testBit_toNat, shiftByte_getLsbD, if_neg (by omega), hbit, Bool.and_false]

/-- Shifting the bit of position `p` in fills the frame to the next position (R127, R128). -/
theorem Frame.FilledTo.shiftBit {f : Frame} {p : Nat} (h : f.FilledTo p) (b : Bool) (hp : p < 39) :
    (f.shiftBit p b).FilledTo (p + 1) where
  later j hj := by
    rw [Frame.get_shiftBit_other f p j b (by omega)]
    exact h.later j (by omega)
  filling := by
    by_cases hbyte : (p + 1) / 8 = p / 8
    · rw [hbyte, Frame.get_shiftBit_same f p b (by omega), show (p + 1) % 8 = p % 8 + 1 by omega]
      exact shiftByte_toNat_lt b h.filling
    · rw [Frame.get_shiftBit_other f p _ b hbyte, h.later _ (by omega)]
      exact Nat.two_pow_pos _

/-- What the invariants ask of the counters and the frame in each state. -/
def State.ProgressOk (s : State) : Prop :=
  match s.st with
  | .wake => s.dly < s.cfg.wakeTicks ∧ s.f = Frame.zero ∧ s.idx = 0
  | .release => s.dly < s.cfg.releaseTicks ∧ s.f = Frame.zero ∧ s.idx = 0
  | .ackLow => s.dly = 0 ∧ s.f = Frame.zero ∧ s.idx = 0
  | .ackHigh => s.dly = 0 ∧ s.f = Frame.zero ∧ s.idx = 0 ∧ 1 ≤ s.cnt
  | .bitLow | .bitHigh => s.dly = 0 ∧ s.f.FilledTo s.idx ∧ 1 ≤ s.cnt
  | .idle | .validate | .success | .failed => s.dly = 0

/-- What the invariants ask of the registers that hold the outcome in each state (R41). -/
def State.ResultOk (s : State) : Prop :=
  match s.st with
  | .success => s.err = .none ∧ s.f.sum = s.f.csum ∧ s.temp = s.f.temperature ∧ s.hum = s.f.humidity
  | .failed => s.err ≠ .none ∧ s.temp = 0 ∧ s.hum = 0
  | _ => s.err = .none ∧ s.temp = 0 ∧ s.hum = 0

theorem Inv.progressOk {s : State} (h : Inv s) : s.ProgressOk := by
  unfold State.ProgressOk
  cases hst : s.st with
  | wake => exact ⟨h.dlyWake hst, h.handshake (by simp [hst])⟩
  | release => exact ⟨h.dlyRelease hst, h.handshake (by simp [hst])⟩
  | ackLow => exact ⟨h.dlyElse (by simp [hst]) (by simp [hst]), h.handshake (by simp [hst])⟩
  | ackHigh =>
    obtain ⟨hf, hidx⟩ := h.handshake (by simp [hst])
    exact ⟨h.dlyElse (by simp [hst]) (by simp [hst]), hf, hidx, h.counted (by simp [hst])⟩
  | bitLow | bitHigh =>
    have hd : s.st.data = true := by rw [hst]; rfl
    have hm : s.st.measuring = true := by rw [hst]; rfl
    exact ⟨h.dlyElse (by simp [hst]) (by simp [hst]), ⟨h.later hd hm, h.filling hd hm⟩, h.counted (by simp [hst])⟩
  | idle | validate | success | failed => exact h.dlyElse (by simp [hst]) (by simp [hst])

theorem Inv.resultOk {s : State} (h : Inv s) : s.ResultOk := by
  have herr : s.st ≠ .failed → s.err = .none := fun hst => not_not.mp (mt h.err.mp hst)
  unfold State.ResultOk
  split
  case h_1 hst => exact ⟨herr (by simp [hst]), h.success hst⟩
  case h_2 hst => exact ⟨h.err.mpr hst, h.values (by simp [hst])⟩
  case h_3 hsuccess hfailed => exact ⟨herr hfailed, h.values hsuccess⟩

/-- The values of the outcome are in their ranges (R146). -/
theorem State.ResultOk.ranges {s : State} (h : s.ResultOk) : s.temp.natAbs ≤ 1525 ∧ s.hum ≤ 2805 := by
  unfold State.ResultOk at h
  split at h
  · obtain ⟨-, -, htemp, hhum⟩ := h
    rw [htemp, hhum, Frame.temperature_natAbs]
    exact ⟨s.f.magnitude_le, s.f.humidity_le⟩
  · simp [h.2]
  · simp [h.2]

/-- The invariants of R39, read state by state. -/
theorem inv_iff (s : State) :
    Inv s ↔ s.cfg.ok = true ∧ s.idx ≤ 39 ∧ s.cnt < s.cfg.timeoutTicks ∧ s.lo < s.cfg.timeoutTicks ∧
      s.ProgressOk ∧ s.ResultOk := by
  refine ⟨fun h => ⟨h.config, h.idx, h.cnt, h.lo, h.progressOk, h.resultOk⟩, ?_⟩
  rintro ⟨hok, hidx, hcnt, hlo, hprogress, hresult⟩
  obtain ⟨htemp, hhum⟩ := hresult.ranges
  unfold State.ProgressOk at hprogress
  unfold State.ResultOk at hresult
  have hdata : s.st.data = true → s.st.measuring = true → s.f.FilledTo s.idx := by
    cases hst : s.st <;> simp_all [St.data, St.measuring, St.code]
  exact {
    config := hok, idx := hidx, cnt := hcnt, lo := hlo, tempRange := htemp, humRange := hhum
    dlyWake := fun hst => by simp_all
    dlyRelease := fun hst => by simp_all
    dlyElse := by cases hst : s.st <;> simp_all
    err := by cases hst : s.st <;> simp_all
    values := by cases hst : s.st <;> simp_all
    success := fun hst => by simp_all
    later := fun hd hm => (hdata hd hm).later
    filling := fun hd hm => (hdata hd hm).filling
    handshake := by rintro (hst | hst | hst | hst) <;> simp_all
    counted := by rintro (hst | hst | hst) <;> simp_all }

/-- Settles O43: at reset every register is clear. -/
theorem invariantsHoldAtReset : Obligations.InvariantsHoldAtReset :=
  (inv_iff _).mpr ⟨by decide, by decide, by decide, by decide, rfl, rfl, rfl, rfl⟩

/-- Reset establishes the invariants under a legal configuration: it clears every register (R38). -/
theorem Inv.resetRegisters {s : State} (hok : s.cfg.ok = true) : Inv s.resetRegisters := by
  obtain ⟨hlim, -⟩ := config_ok_bounds hok
  have hpos : 0 < s.cfg.timeoutTicks := by omega
  exact (inv_iff _).mpr ⟨hok, Nat.zero_le _, hpos, hpos, rfl, rfl, rfl, rfl⟩

/-- Acceptance does too: it clears what reset clears, and WAKE begins at count 0 (R102). -/
theorem Inv.accept {s : State} (hok : s.cfg.ok = true) : Inv s.accept := by
  obtain ⟨hlim, -, hwake, -⟩ := config_ok_bounds hok
  have hpos : 0 < s.cfg.timeoutTicks := by omega
  exact (inv_iff _).mpr ⟨hok, Nat.zero_le _, hpos, hpos, ⟨hwake, rfl, rfl⟩, rfl, rfl, rfl⟩

/-- A failure is raised where no delay is counted and no value stands in the registers, so it keeps the invariants (R167). -/
theorem Inv.raise {s : State} (h : Inv s) (k : Failure) (hm : s.st.measuring = true ∨ s.st = .validate) :
    Inv (s.raise k) := by
  have hst : s.st ≠ .wake ∧ s.st ≠ .release ∧ s.st ≠ .success := by
    rcases hm with hm | hm
    · rcases (St.measuring_iff _).mp hm with hst | hst | hst | hst <;> simp [hst]
    · simp [hm]
  obtain ⟨hwake, hrelease, hsuccess⟩ := hst
  have herr : k.err ≠ .none := by cases k <;> simp [Failure.err]
  exact (inv_iff _).mpr ⟨h.config, h.idx, h.cnt, h.lo, h.dlyElse hwake hrelease, herr, h.values hsuccess⟩

/-- A sample counted at least once keeps what the state asks of the counters. -/
theorem State.ProgressOk.count {s : State} (h : s.ProgressOk) {n : Nat} (hn : 1 ≤ n) :
    State.ProgressOk { s with cnt := n } := by
  unfold State.ProgressOk at h ⊢
  cases hst : s.st <;> simp_all

/-- Every row of the transition table keeps the invariants. -/
theorem Inv.row {s t : State} (h : Inv s) (hrow : TableRow s t) : Inv t := by
  obtain ⟨hok, hidx, hcnt, hlo, hprogress, hresult⟩ := (inv_iff s).mp h
  obtain ⟨hlim, hcntW, -, hwakeW, hrelease, hreleaseW, hidxW, -⟩ := config_ok_bounds hok
  rw [inv_iff]
  cases hrow with
  | rest => exact ⟨hok, hidx, hcnt, hlo, hprogress, hresult⟩
  | wakeCount hst hne =>
    simp only [State.ProgressOk, State.ResultOk, hst] at hprogress hresult ⊢
    obtain ⟨hdly, hclear⟩ := hprogress
    rw [trunc_of_lt (by omega)]
    exact ⟨hok, hidx, hcnt, hlo, ⟨by omega, hclear⟩, hresult⟩
  | wakeEnd hst =>
    simp only [State.ProgressOk, State.ResultOk, hst] at hprogress hresult ⊢
    exact ⟨hok, hidx, hcnt, hlo, ⟨hrelease, hprogress.2⟩, hresult⟩
  | releaseCount hst hne =>
    simp only [State.ProgressOk, State.ResultOk, hst] at hprogress hresult ⊢
    obtain ⟨hdly, hclear⟩ := hprogress
    rw [trunc_of_lt (by omega)]
    exact ⟨hok, hidx, hcnt, hlo, ⟨by omega, hclear⟩, hresult⟩
  | releaseEnd hst =>
    simp only [State.ProgressOk, State.ResultOk, hst] at hprogress hresult ⊢
    exact ⟨hok, hidx, by omega, hlo, ⟨trivial, hprogress.2⟩, hresult⟩
  | count hm hs hne =>
    rw [trunc_of_lt (by omega)]
    exact ⟨hok, hidx, by simp only; omega, hlo, hprogress.count (by omega), hresult⟩
  | timeout hm => exact (inv_iff _).mp (h.raise _ (.inl hm))
  | endLow data hst =>
    cases data <;> simp only [State.ProgressOk, State.ResultOk, hst, St.measure, State.endLow] at hprogress hresult ⊢
    · obtain ⟨hdly, hf, hidx'⟩ := hprogress
      exact ⟨hok, hidx, by omega, hcnt, ⟨hdly, hf, hidx', le_rfl⟩, hresult⟩
    · obtain ⟨hdly, hfilled, -⟩ := hprogress
      exact ⟨hok, hidx, by omega, hcnt, ⟨hdly, hfilled, le_rfl⟩, hresult⟩
  | endAck hst =>
    simp only [State.ProgressOk, State.ResultOk, hst, State.endAck] at hprogress hresult ⊢
    obtain ⟨hdly, hf, -⟩ := hprogress
    exact ⟨hok, Nat.zero_le _, by omega, hlo, ⟨hdly, hf ▸ .zero, le_rfl⟩, hresult⟩
  | nextBit hst hs hne =>
    simp only [State.ProgressOk, State.ResultOk, hst, State.shiftIn] at hprogress hresult ⊢
    obtain ⟨hdly, hfilled, -⟩ := hprogress
    rw [trunc_of_lt (by omega)]
    exact ⟨hok, by omega, by omega, hlo, ⟨hdly, hfilled.shiftBit _ (by omega), le_rfl⟩, hresult⟩
  | lastBit hst =>
    simp only [State.ProgressOk, State.ResultOk, hst, State.shiftIn] at hprogress hresult ⊢
    exact ⟨hok, hidx, hcnt, hlo, hprogress.1, hresult⟩
  | success hst hc =>
    simp only [State.ProgressOk, State.ResultOk, hst] at hprogress hresult ⊢
    exact ⟨hok, hidx, hcnt, hlo, hprogress, hresult.1, hc, Frame.truncSigned_temperature hok s.f,
      Frame.trunc_humidity hok s.f⟩
  | mismatch hst => exact (inv_iff _).mp (h.raise _ (.inr hst))

/-- The invariants speak of the parameters and the registers alone. -/
theorem Inv.present {s : State} (h : Inv s) : Inv s.present := by
  unfold State.present
  split <;> exact { h with }

/-- Settles O44. Reset and acceptance clear everything, and each row of the table keeps what R39 says. -/
theorem everyStepKeepsTheInvariants : Obligations.EveryStepKeepsTheInvariants := by
  intro s t h hstep
  obtain ⟨hok, ⟨-, rfl⟩ | ⟨-, -, -, rfl⟩ | ⟨-, -, hrow⟩⟩ := step_rows hstep
  · exact .resetRegisters (by simpa using hok)
  · exact .accept (by simpa using hok)
  · exact h.present.row hrow

/-! ### O1, O31, O42: The reset state, the resting states, the state codes -/

/-- Settles O1: the reset state is the table of R38. -/
theorem resetLeavesEveryRegisterAtItsValue : Obligations.ResetLeavesEveryRegisterAtItsValue :=
  ⟨rfl, rfl⟩

/-- Settles O31: the three rows are `restOp` at the three resting states. -/
theorem restingStatesHoldAndAccept : Obligations.RestingStatesHoldAndAccept :=
  fun _ => ⟨rfl, rfl, rfl⟩

/-- Every state's code is one of the ten (R24). -/
theorem St.code_lt (x : St) : x.code.toNat < 10 := by
  cases x <;> decide

theorem St.ofCode_code (x : St) : St.ofCode x.code = some x := by
  cases x <;> rfl

/-- A code above the ten names no state. -/
theorem St.ofCode_eq_none {w : BitVec 4} (hw : 10 ≤ w.toNat) : St.ofCode w = none := by
  refine List.find?_eq_none.mpr fun x _ hx => ?_
  obtain rfl : x.code = w := beq_iff_eq.mp hx
  exact Nat.not_le_of_lt x.code_lt hw

/-- Bit 3 of a code is set in the two states that end a run (R80). -/
theorem St.code_bit3_iff (x : St) : x.code.getLsbD 3 = true ↔ x = .success ∨ x = .failed := by
  cases x <;> decide

/-- Settles O42. Each bit's meaning is a law of the state codes. -/
theorem stateCodesSayWhatTheyMean : Obligations.StateCodesSayWhatTheyMean :=
  ⟨St.ofCode_code, fun _ => St.ofCode_eq_none, St.measuring_iff,
    fun data level => ⟨St.measure_measuring data level, St.measure_level data level, St.measure_data data level⟩,
    St.code_bit3_iff⟩

/-! ### O48, O49: The writers of the values and of the frame -/

/-- Among the rows of the table only that of a successful validation writes `TEMP` or `HUM` (R22, R23). -/
theorem TableRow.values {s t : State} (h : TableRow s t) (hok : s.cfg.ok = true)
    (hne : t.temp ≠ s.temp ∨ t.hum ≠ s.hum) :
    s.st = .validate ∧ t.st = .success ∧ s.f.sum = s.f.csum ∧ t.temp = s.f.temperature ∧ t.hum = s.f.humidity := by
  cases h with
  | success hst hc =>
    exact ⟨hst, rfl, hc, Frame.truncSigned_temperature hok s.f, Frame.trunc_humidity hok s.f⟩
  | _ => simp at hne

/-- Among the rows of the table only those that end a data bit's high phase write the frame, by SHIFT (R21). -/
theorem TableRow.frame {s t : State} (h : TableRow s t) (hne : t.f ≠ s.f) :
    s.st = .bitHigh ∧ s.sample = low ∧ t.f = s.f.shiftBit s.idx (decide (s.lo < s.cnt)) := by
  cases h with
  | nextBit hst hs | lastBit hst hs => exact ⟨hst, hs, rfl⟩
  | _ => simp at hne

/-- Settles O48. Reset and acceptance clear both values; of the rows only `TableRow.success` writes them. -/
theorem valueRegistersHaveNoOtherWriter : Obligations.ValueRegistersHaveNoOtherWriter := by
  intro s t hstep hne
  obtain ⟨hok, ⟨hr, rfl⟩ | ⟨-, hs, hq, rfl⟩ | ⟨-, -, hrow⟩⟩ := step_rows hstep
  · exact .inr ⟨rfl, rfl, .inl hr⟩
  · exact .inr ⟨rfl, rfl, .inr ⟨hq, hs⟩⟩
  · exact .inl (by simpa using hrow.values (by simpa using hok) (by simpa using hne))

/-- Settles O49. Reset and acceptance clear the frame; of the rows only those with SHIFT write it. -/
theorem rawFrameHasNoOtherWriter : Obligations.RawFrameHasNoOtherWriter := by
  intro s t hstep hne
  obtain ⟨-, ⟨hr, rfl⟩ | ⟨-, hs, hq, rfl⟩ | ⟨-, -, hrow⟩⟩ := step_rows hstep
  · exact .inr ⟨rfl, .inl hr⟩
  · exact .inr ⟨rfl, .inr ⟨hq, hs⟩⟩
  · exact .inl (by simpa using hrow.frame (by simpa using hne))

/-! ### O45: The ports -/

/-- Before a run has ended the host reads no outcome (R41). -/
theorem State.measurement_none {s : State} (hd : s.done = false) : s.outputs.measurement = .none := by
  simp [State.outputs, Outputs.measurement, hd]

/-- `busy` and `done` are never both 1 (R31). -/
theorem State.not_busy_and_done (s : State) : ¬(s.busy = true ∧ s.done = true) := by
  unfold State.busy State.done
  cases s.st <;> simp

/-- Both are 0 in IDLE alone (R31). -/
theorem State.not_busy_nor_done_iff (s : State) : s.busy = false ∧ s.done = false ↔ s.st = .idle := by
  unfold State.busy State.done
  cases s.st <;> simp

theorem State.done_eq_false {s : State} (hsuccess : s.st ≠ .success) (hfailed : s.st ≠ .failed) : s.done = false := by
  unfold State.done
  cases hst : s.st <;> simp_all

/-- An `ERR` that is not NONE records one of the two failure kinds (R29). -/
theorem Err.exists_kind {e : Err} (h : e ≠ .none) : ∃ k : Failure, e = k.err := by
  cases e with
  | none => exact absurd rfl h
  | timeout => exact ⟨.timeout, rfl⟩
  | checksumMismatch => exact ⟨.checksumMismatch, rfl⟩

/-- Settles O45. In each state the registers that hold the outcome are as `ResultOk` says, which is one row of R41. -/
theorem portsShowOneWholeOutcome : Obligations.PortsShowOneWholeOutcome := by
  intro s h
  refine ⟨s.not_busy_and_done, s.not_busy_nor_done_iff, ?_⟩
  have hresult := h.resultOk
  unfold State.ResultOk at hresult
  split at hresult
  case h_1 hst =>
    obtain ⟨herr, -, htemp, hhum⟩ := hresult
    have hdone : s.done = true := by rw [State.done, hst]
    rw [State.measurement_success hst herr, State.outWord, hdone, herr]
    exact ⟨hdone, congrArg Err.code herr, hst, htemp, hhum, rfl⟩
  case h_2 hst =>
    obtain ⟨herr, htemp, hhum⟩ := hresult
    have hdone : s.done = true := by rw [State.done, hst]
    obtain ⟨k, hk⟩ := Err.exists_kind herr
    rw [State.measurement_failed k hst hk, State.outWord, hdone, hk]
    cases k <;> exact ⟨hdone, congrArg Err.code hk, htemp, hhum, rfl⟩
  case h_3 hsuccess hfailed =>
    obtain ⟨herr, htemp, hhum⟩ := hresult
    have hdone : s.done = false := State.done_eq_false hsuccess hfailed
    rw [State.measurement_none hdone, State.outWord, hdone, herr]
    exact ⟨hdone, congrArg Err.code herr, htemp, hhum, rfl⟩

/-! ### O5: The transition table -/

/-- The rows that lead to FAILED record the kind the table names (R124, R141). -/
theorem TableRow.failed_err {s t : State} (h : TableRow s t) (ht : t.st = .failed) (hs : s.st ≠ .failed) :
    t.err = if s.st = .validate then .checksumMismatch else .timeout := by
  cases h with
  | timeout hm =>
    have hst : s.st ≠ .validate := by rintro hst; rw [hst] at hm; cases hm
    rw [if_neg hst]
    rfl
  | mismatch hst => rw [if_pos hst]; rfl
  | endLow data => cases data <;> cases ht
  | rest | wakeCount | releaseCount | count => exact absurd ht hs
  | _ => cases ht

/-- The next state of a delay: it stays until its count is done (R110, R111). -/
theorem State.wakeTick_st {s : State} (hst : s.st = .wake) :
    s.wakeTick.st = if s.dly + 1 = s.cfg.wakeTicks then .release else .wake := by
  by_cases h : s.dly + 1 = s.cfg.wakeTicks <;> simp [State.wakeTick, State.wakeDone, h, hst]

theorem State.releaseTick_st {s : State} (hst : s.st = .release) :
    s.releaseTick.st = if s.dly + 1 = s.cfg.releaseTicks then .ackLow else .release := by
  by_cases h : s.dly + 1 = s.cfg.releaseTicks <;> simp [State.releaseTick, State.releaseDone, h, hst]

/-- The next state of a measurement that goes on: it jumps to FAILED on the last matching sample (R124). -/
theorem State.countSample_st (s : State) :
    s.countSample.st = if s.cnt + 1 = s.cfg.timeoutTicks then .failed else s.st := by
  rcases s.countSample_cases with ⟨h, e⟩ | ⟨h, e⟩ <;> simp [h, e]

/-- The next state of a low phase (R121). -/
theorem State.lowTick_st (next : St) (s : State) :
    (s.lowTick next).st = if s.sample = high then next
      else if s.cnt + 1 = s.cfg.timeoutTicks then .failed else s.st := by
  cases hs : s.sample
  · rw [s.lowTick_low next hs, s.countSample_st, if_neg Bool.false_ne_true]
  · rw [s.lowTick_high next hs, if_pos rfl, State.endLow_st]

/-- The next state, and the bit position, of the acknowledgement's high phase (R112). -/
theorem State.ackHighTick_st_idx {s : State} (hst : s.st = .ackHigh) :
    s.ackHighTick.st = (if s.sample = low then .bitLow
      else if s.cnt + 1 = s.cfg.timeoutTicks then .failed else .ackHigh) ∧
    (s.ackHighTick.st = .bitLow → s.ackHighTick.idx = 0) := by
  cases hs : s.sample
  · rw [s.ackHighTick_low hs, if_pos rfl]
    exact ⟨rfl, fun _ => rfl⟩
  · rw [s.ackHighTick_high hs, s.countSample_st, hst, if_neg Bool.false_ne_true.symm]
    exact ⟨rfl, by split <;> nofun⟩

/-- The next state, and the bit position, of a data bit's high phase (R122, R128). -/
theorem State.bitHighTick_st_idx {s : State} (hok : s.cfg.ok = true) (hst : s.st = .bitHigh) :
    s.bitHighTick.st = (if s.sample = low then (if s.idx = 39 then .validate else .bitLow)
      else if s.cnt + 1 = s.cfg.timeoutTicks then .failed else .bitHigh) ∧
    (s.bitHighTick.st = .bitLow → s.idx < 39 → s.bitHighTick.idx = s.idx + 1) := by
  obtain ⟨-, -, -, -, -, -, hidxW, -⟩ := config_ok_bounds hok
  cases hs : s.sample
  · rw [s.bitHighTick_low hs, if_pos rfl]
    rcases s.shiftIn.nextBit_cases with ⟨hlast, h⟩ | ⟨hne, h⟩ <;> rw [h]
    · exact ⟨(if_pos hlast).symm, nofun⟩
    · exact ⟨(if_neg hne).symm, fun _ hlt => trunc_of_lt (by simp; omega)⟩
  · rw [s.bitHighTick_high hs, s.countSample_st, hst, if_neg Bool.false_ne_true.symm]
    exact ⟨rfl, by split <;> nofun⟩

/-- The next state of VALIDATE (R141). -/
theorem State.ownTick_validate_st {s : State} (hst : s.st = .validate) :
    s.ownTick.st = if s.f.b0 + s.f.b1 + s.f.b2 + s.f.b3 = s.f.b4 then .success else .failed := by
  cases hc : s.checksumOk
  · rw [s.ownTick_validate_differ hst hc, if_neg (by simpa [State.checksumOk, Frame.sum, Frame.csum] using hc)]
    rfl
  · rw [s.ownTick_validate_match hst hc, if_pos (by simpa [State.checksumOk, Frame.sum, Frame.csum] using hc)]

/-- The next state of a resting state: MEASURE is accepted, or nothing changes (R102, R104). -/
theorem State.tickEnd_resting_st {s : State} (hr : s.inp.rst = false) (hq : s.st.resting = true) :
    s.tickEnd.st = if s.inp.start = true then .wake else s.st := by
  cases hs : s.inp.start
  · simp [State.tickEnd, hr, hs, s.ownTick_resting hq]
  · rw [State.tickEnd_accept hr hs hq, if_pos rfl, State.accept_st]

/-- Settles O5. A resting state accepts MEASURE or stays; a busy one makes its own transition, whose next state the lemmas
above give row by row. -/
theorem sequencerFollowsTheTransitionTable : Obligations.SequencerFollowsTheTransitionTable := by
  intro s hok hr
  refine ⟨_, step_next s hok, fun ht hne => ?_, ?_⟩
  · obtain ⟨-, ⟨hrst, -⟩ | ⟨-, -, -, haccept⟩ | ⟨-, -, hrow⟩⟩ := step_rows (step_next s hok)
    · rw [hr] at hrst
      cases hrst
    · rw [haccept] at ht
      cases ht
    · simpa using hrow.failed_err ht (by simpa using hne)
  · have hbusy : s.present.st.resting = false → s.present.tickEnd = s.present.ownTick := State.tickEnd_busy hr
    rw [← s.present_st]
    cases hst : s.present.st with
    | idle | success | failed =>
      rw [State.tickEnd_resting_st hr (by rw [hst]; rfl), hst]
    | wake =>
      rw [hbusy (by rw [hst]; rfl), State.ownTick_wake _ hst]
      simpa using State.wakeTick_st hst
    | release =>
      rw [hbusy (by rw [hst]; rfl), State.ownTick_release _ hst]
      simpa using State.releaseTick_st hst
    | ackLow =>
      rw [hbusy (by rw [hst]; rfl), State.ownTick_ackLow _ hst, State.lowTick_st, hst, State.present_cnt,
        State.present_cfg]
    | bitLow =>
      rw [hbusy (by rw [hst]; rfl), State.ownTick_bitLow _ hst, State.lowTick_st, hst, State.present_cnt,
        State.present_cfg]
    | ackHigh =>
      rw [hbusy (by rw [hst]; rfl), State.ownTick_ackHigh _ hst]
      simpa using State.ackHighTick_st_idx hst
    | bitHigh =>
      rw [hbusy (by rw [hst]; rfl), State.ownTick_bitHigh _ hst]
      simpa using State.bitHighTick_st_idx (by simpa using hok) hst
    | validate =>
      rw [hbusy (by rw [hst]; rfl)]
      simpa using State.ownTick_validate_st hst

end Sys2Proof.Machine
end

section
/-! SUPPORT. The statement of spec/20_memory.md: a tick reads what is around the block only through the command and, in a
measuring state, through the sample of the line (R50). -/

namespace Sys2Proof.Machine

/-! ### What a tick reads -/

section
variable {s u : State} (hc : s.cfg = u.cfg) (hr : s.registers = u.registers)
include hc hr

/-- Counting a sample reads the parameters and the registers alone. -/
theorem State.countSample_registers_congr : s.countSample.registers = u.countSample.registers := by
  obtain ⟨hst, hidx, hdly, hcnt, hlo, hf, herr, htemp, hhum⟩ := Registers.mk.inj hr
  by_cases hlast : u.cnt + 1 = u.cfg.timeoutTicks <;> simp [State.countSample, State.lastSample, *]

/-- So do the shift and the bit loop. -/
theorem State.shiftIn_nextBit_registers_congr : s.shiftIn.nextBit.registers = u.shiftIn.nextBit.registers := by
  obtain ⟨hst, hidx, hdly, hcnt, hlo, hf, herr, htemp, hhum⟩ := Registers.mk.inj hr
  by_cases hlast : u.idx = 39 <;> simp [State.nextBit, State.decodedBit, *]

/-- A tick of a low phase reads the sample besides. -/
theorem State.lowTick_registers_congr (next : St) (hline : s.sample = u.sample) :
    (s.lowTick next).registers = (u.lowTick next).registers := by
  cases hs : u.sample
  · rw [s.lowTick_low next (hline.trans hs), u.lowTick_low next hs]
    exact State.countSample_registers_congr hc hr
  · obtain ⟨hst, hidx, hdly, hcnt, hlo, hf, herr, htemp, hhum⟩ := Registers.mk.inj hr
    simp [s.lowTick_high next (hline.trans hs), u.lowTick_high next hs, *]

theorem State.ackHighTick_registers_congr (hline : s.sample = u.sample) :
    s.ackHighTick.registers = u.ackHighTick.registers := by
  cases hs : u.sample
  · obtain ⟨hst, hidx, hdly, hcnt, hlo, hf, herr, htemp, hhum⟩ := Registers.mk.inj hr
    simp [s.ackHighTick_low (hline.trans hs), u.ackHighTick_low hs, *]
  · rw [s.ackHighTick_high (hline.trans hs), u.ackHighTick_high hs]
    exact State.countSample_registers_congr hc hr

theorem State.bitHighTick_registers_congr (hline : s.sample = u.sample) :
    s.bitHighTick.registers = u.bitHighTick.registers := by
  cases hs : u.sample
  · rw [s.bitHighTick_low (hline.trans hs), u.bitHighTick_low hs]
    exact State.shiftIn_nextBit_registers_congr hc hr
  · rw [s.bitHighTick_high (hline.trans hs), u.bitHighTick_high hs]
    exact State.countSample_registers_congr hc hr

/-- The state's own transition reads the parameters, the registers and, in a measuring state alone, the sample. -/
theorem State.ownTick_registers_congr (hline : s.st.measuring = true → s.sample = u.sample) :
    s.ownTick.registers = u.ownTick.registers := by
  obtain ⟨hst, hidx, hdly, hcnt, hlo, hf, herr, htemp, hhum⟩ := Registers.mk.inj hr
  cases hu : u.st with
  | idle | success | failed =>
    have hq : u.st.resting = true := by rw [hu]; rfl
    rwa [s.ownTick_resting (hst ▸ hq), u.ownTick_resting hq]
  | wake =>
    rw [s.ownTick_wake (hst.trans hu), u.ownTick_wake hu]
    by_cases hlast : u.dly + 1 = u.cfg.wakeTicks <;> simp [State.wakeTick, State.wakeDone, *]
  | release =>
    rw [s.ownTick_release (hst.trans hu), u.ownTick_release hu]
    by_cases hlast : u.dly + 1 = u.cfg.releaseTicks <;> simp [State.releaseTick, State.releaseDone, *]
  | ackLow =>
    rw [s.ownTick_ackLow (hst.trans hu), u.ownTick_ackLow hu]
    exact State.lowTick_registers_congr hc hr _ (hline (by rw [hst, hu]; rfl))
  | ackHigh =>
    rw [s.ownTick_ackHigh (hst.trans hu), u.ownTick_ackHigh hu]
    exact State.ackHighTick_registers_congr hc hr (hline (by rw [hst, hu]; rfl))
  | bitLow =>
    rw [s.ownTick_bitLow (hst.trans hu), u.ownTick_bitLow hu]
    exact State.lowTick_registers_congr hc hr _ (hline (by rw [hst, hu]; rfl))
  | bitHigh =>
    rw [s.ownTick_bitHigh (hst.trans hu), u.ownTick_bitHigh hu]
    exact State.bitHighTick_registers_congr hc hr (hline (by rw [hst, hu]; rfl))
  | validate =>
    have hsum : s.checksumOk = u.checksumOk := by rw [State.checksumOk, hf, State.checksumOk]
    cases hok : u.checksumOk
    · simp [s.ownTick_validate_differ (hst.trans hu) (hsum.trans hok), u.ownTick_validate_differ hu hok, *]
    · simp [s.ownTick_validate_match (hst.trans hu) (hsum.trans hok), u.ownTick_validate_match hu hok, *]

/-- A tick reads the command besides (R166). -/
theorem State.tickEnd_registers_congr (hrst : s.inp.rst = u.inp.rst) (hstart : s.inp.start = u.inp.start)
    (hline : s.st.measuring = true → s.sample = u.sample) : s.tickEnd.registers = u.tickEnd.registers := by
  have hst : s.st = u.st := congrArg Registers.st hr
  unfold State.tickEnd
  rw [hrst, hstart, hst]
  split
  · rfl
  · split
    · rfl
    · exact State.ownTick_registers_congr hc hr hline

end

/-! ### O50: Outside the measuring states the line is not read -/

/-- Settles O50. The two ticks begin with the same parameters, registers and command, and outside the measuring states a tick
reads nothing else. -/
theorem lineIsReadOnlyWhileMeasuring : Obligations.LineIsReadOnlyWhileMeasuring := by
  intro s i rest line hok hm hin
  refine ⟨_, _, step_next s hok, step_next _ hok, ?_⟩
  rw [State.present_cons hin]
  exact State.tickEnd_registers_congr rfl rfl rfl rfl fun h => absurd (hm.symm.trans h) Bool.false_ne_true

end Sys2Proof.Machine
end

section
/-! SUPPORT. The statements of spec/30_encoding.md: what decodes to what, the rows that share a state code, the handshake
waveform on the port, and what the symbols and the frame leave in the registers, one phase of a symbol at a time. -/

namespace Sys2Proof.Machine

/-! ### O40: Waveforms and frames -/

/-- A run of one level begins with all of its samples, whatever follows it. -/
theorem leading_runOf_append (l : Level) (n : Nat) (rest : List Level) :
    leading l (runOf l n ++ rest) = n + leading l rest := by
  induction n with
  | zero => exact (Nat.zero_add _).symm
  | succ n ih =>
    change leading l (l :: (runOf l n ++ rest)) = _
    rw [leading, if_pos rfl, ih]
    omega

/-- A run of one level begins with no sample of the other. -/
theorem leading_runOf_other {l k : Level} (h : k ≠ l) (n : Nat) : leading l (runOf k n) = 0 := by
  cases n with
  | zero => rfl
  | succ n => exact if_neg h

theorem leading_low_symbolWave (lo hi : Nat) : leading low (symbolWave lo hi) = lo := by
  rw [symbolWave, leading_runOf_append, leading_runOf_other (by decide), Nat.add_zero]

/-- After a symbol's low phase its high phase is left. -/
theorem drop_symbolWave (lo hi : Nat) : (symbolWave lo hi).drop lo = runOf high hi :=
  List.drop_left' List.length_replicate

theorem leading_high_runOf (hi : Nat) : leading high (runOf high hi) = hi := by
  simpa [leading] using leading_runOf_append high hi []

theorem length_symbolWave (lo hi : Nat) : (symbolWave lo hi).length = lo + hi := by
  simp [symbolWave, runOf]

/-- A symbol with both phases below the limit is decoded by its place and by R74's comparison. -/
theorem decodeSym_symbolWave {c : Config} {lo hi : Nat} (place : SymbolPlace) (hlo : lo < c.timeoutTicks) (hpos : 1 ≤ hi)
    (hhi : hi < c.timeoutTicks) :
    decodeSym c place (symbolWave lo hi) =
      .ok [if place = .first then .symAck lo hi else if lo < hi then .symOne lo hi else .symZero lo hi] := by
  simp only [decodeSym, leading_low_symbolWave, drop_symbolWave, leading_high_runOf, length_symbolWave]
  rw [if_neg (by simp), if_neg (by omega), if_neg (by omega), if_neg (by omega)]
  cases place
  · rfl
  · exact (apply_ite (fun i => Except.ok [i]) _ _ _).symm

/-- A run at one level is a symbol with one phase. -/
theorem runOf_eq_symbolWave (level : Level) (n : Nat) :
    runOf level n = if level = low then symbolWave n 0 else symbolWave 0 n := by
  cases level <;> simp [symbolWave, runOf]

/-- A run of `TIMEOUT_TICKS` or more samples at one level is a Timeout, at either place (R83). -/
theorem decodeSym_runOf {c : Config} {n : Nat} (place : SymbolPlace) (level : Level) (hpos : 0 < c.timeoutTicks)
    (hn : c.timeoutTicks ≤ n) :
    decodeSym c place (runOf level n) = .ok [.symTimeout level n] := by
  rw [runOf_eq_symbolWave]
  cases level
  · simp only [decodeSym, if_true, leading_low_symbolWave, drop_symbolWave, leading_high_runOf, length_symbolWave]
    rw [if_neg (by simp), if_pos hn]
  · simp only [decodeSym, Bool.true_eq_false, if_false, leading_low_symbolWave, drop_symbolWave, leading_high_runOf,
      length_symbolWave]
    rw [if_neg (by simp), if_neg (by omega), if_pos hn, if_pos trivial]

/-- Above a word's last byte stands the word before it. -/
theorem extractLsb'_append_byte {n : Nat} (x : BitVec n) (y : Byte) (start len : Nat) :
    (x ++ y).extractLsb' (start + 8) len = x.extractLsb' start len := by
  rw [BitVec.extractLsb'_append_eq_of_le (Nat.le_add_left 8 start), Nat.add_sub_cancel]

/-- The forty bits of a frame give its fields back (R75). -/
theorem decodeFrame_append (h g : Byte) (s : Bool) (t : BitVec 7) (f c : Byte) :
    decodeFrame (h ++ g ++ (BitVec.ofBool s ++ t) ++ f ++ c) = .frame h g s t f c := by
  have above_c := fun start len => extractLsb'_append_byte (h ++ g ++ (BitVec.ofBool s ++ t) ++ f) c start len
  have above_f := fun start len => extractLsb'_append_byte (h ++ g ++ (BitVec.ofBool s ++ t)) f start len
  have above_t := fun start len => extractLsb'_append_byte (h ++ g) (BitVec.ofBool s ++ t) start len
  rw [decodeFrame, Instr.frame.injEq]
  refine ⟨?_, ?_, ?_, ?_, ?_, ?_⟩
  · exact (above_c 24 8).trans ((above_f 16 8).trans ((above_t 8 8).trans BitVec.extractLsb'_append_eq_left))
  · exact (above_c 16 8).trans ((above_f 8 8).trans ((above_t 0 8).trans BitVec.extractLsb'_append_eq_right))
  · have hbit := congrArg (BitVec.getLsbD · 7)
      ((above_c 8 8).trans ((above_f 0 8).trans BitVec.extractLsb'_append_eq_right))
    have hsign : (BitVec.ofBool s ++ t).getLsbD 7 = s := by rw [BitVec.getLsbD_append]; simp
    rw [BitVec.getLsbD_extractLsb', hsign] at hbit
    exact hbit
  · exact (above_c 8 7).trans ((above_f 0 7).trans ((BitVec.extractLsb'_append_eq_of_add_le (by decide)).trans
      BitVec.extractLsb'_append_eq_right))
  · exact (above_c 0 8).trans BitVec.extractLsb'_append_eq_right
  · exact BitVec.extractLsb'_append_eq_right

/-- Settles O40. A symbol's phases are the two runs that `leading` counts, and the frame's fields are disjoint runs of its
forty bits. -/
theorem waveformsDecodeToWhatTheyEncode : Obligations.WaveformsDecodeToWhatTheyEncode := by
  intro c lo hi n level h g sg t f k hok i hi_mem hwf
  obtain ⟨hlim, -⟩ := config_ok_bounds hok
  simp only [List.mem_cons, List.not_mem_nil, or_false] at hi_mem
  obtain rfl | rfl | rfl | rfl | rfl := hi_mem
  · obtain ⟨⟨hlo, hpos⟩, hle⟩ : (lo < c.timeoutTicks ∧ 1 ≤ hi) ∧ hi ≤ lo := by simpa [Instr.wellFormed] using hwf
    exact (decodeSym_symbolWave .data hlo hpos (by omega)).trans (by simp [hle])
  · obtain ⟨hlt, hhi⟩ : lo < hi ∧ hi < c.timeoutTicks := by simpa [Instr.wellFormed] using hwf
    exact (decodeSym_symbolWave .data (by omega) (by omega) hhi).trans (by simp [hlt])
  · obtain ⟨⟨hlo, hpos⟩, hhi⟩ : (lo < c.timeoutTicks ∧ 1 ≤ hi) ∧ hi < c.timeoutTicks := by
      simpa [Instr.wellFormed] using hwf
    exact decodeSym_symbolWave .first hlo hpos hhi
  · exact decodeSym_runOf .data level (by omega) (of_decide_eq_true hwf)
  · exact congrArg (fun i => Except.ok [i]) (decodeFrame_append h g sg t f k)

/-! ### O6: Every row a state selects is the tick -/

/-- ACK, in the phase it names, is the state's own transition (R112). -/
theorem State.ackOp_selected {s : State} {phase : Level} (h : s.st = St.measure false phase) :
    s.ackOp phase = s.ownTick := by
  cases phase
  · exact (if_pos h).trans (s.ownTick_ackLow h).symm
  · exact (if_pos h).trans (s.ownTick_ackHigh h).symm

/-- PULSE.L, in the low phase it names, is the state's own transition (R121). -/
theorem State.pulseLowOp_selected {s : State} {data : Bool} (h : s.st = St.measure data low) :
    s.pulseLowOp data = s.ownTick := by
  cases data
  · exact (if_pos h).trans (s.ownTick_ackLow h).symm
  · exact (if_pos h).trans (s.ownTick_bitLow h).symm

/-- PULSE.H, in the high phase it names, is the state's own transition (R122). -/
theorem State.pulseHighOp_selected {s : State} {data : Bool} (h : s.st = St.measure data high) :
    s.pulseHighOp data = s.ownTick := by
  cases data
  · exact (if_pos h).trans (s.ownTick_ackHigh h).symm
  · exact (if_pos h).trans (s.ownTick_bitHigh h).symm

/-- RDBIT, in the phase it names, is the state's own transition (R125). -/
theorem State.rdbitOp_selected {s : State} {phase : Level} (h : s.st = St.measure true phase) :
    s.rdbitOp phase = s.ownTick := by
  cases phase
  · exact (if_pos h).trans (s.ownTick_bitLow h).symm
  · exact (if_pos h).trans (s.ownTick_bitHigh h).symm

/-- Settles O6. Each row that shares a busy state's code is that state's own transition under another name. -/
theorem everyRowTheStateSelectsIsTheTick : Obligations.EveryRowTheStateSelectsIsTheTick := by
  intro s l i hbusy hval hdec hmem
  have tick : ∀ {t : State}, t = s.ownTick → (.next t : Result) = exec .nop s := congrArg _
  cases hst : s.st <;> rw [hst] at hdec <;> obtain rfl := Except.ok.inj hdec
  case idle | success | failed => simp [State.busy, hst] at hbusy
  case validate => exact absurd hst hval
  case wake =>
    obtain rfl := List.mem_singleton.mp hmem
    exact tick ((if_pos hst).trans (s.ownTick_wake hst).symm)
  case release =>
    obtain rfl := List.mem_singleton.mp hmem
    exact tick ((if_pos hst).trans (s.ownTick_release hst).symm)
  case ackLow =>
    obtain rfl | rfl := List.mem_pair.mp hmem
    · exact tick (State.ackOp_selected hst)
    · exact tick (State.pulseLowOp_selected hst)
  case ackHigh =>
    obtain rfl | rfl := List.mem_pair.mp hmem
    · exact tick (State.pulseHighOp_selected hst)
    · exact tick (State.ackOp_selected hst)
  case bitLow =>
    obtain rfl | rfl := List.mem_pair.mp hmem
    · exact tick (State.rdbitOp_selected hst)
    · exact tick (State.pulseLowOp_selected hst)
  case bitHigh =>
    obtain rfl | rfl := List.mem_pair.mp hmem
    · exact tick (State.pulseHighOp_selected hst)
    · exact tick (State.rdbitOp_selected hst)

/-! ### O16: The handshake on the port `drive_low` -/

/-- Before its last tick WAKE counts `DLY` up (R110). -/
theorem State.ownTick_wake_counts {s : State} (hok : s.cfg.ok = true) (hst : s.st = .wake)
    (hlt : s.dly + 1 < s.cfg.wakeTicks) : s.ownTick.registers = { s.registers with dly := s.dly + 1 } := by
  obtain ⟨-, -, -, hfit, -⟩ := config_ok_bounds hok
  have hcut : trunc s.cfg.wDly (s.dly + 1) = s.dly + 1 := trunc_of_lt (by omega)
  simp [s.ownTick_wake hst, State.wakeTick, State.wakeDone, hcut, hlt.ne]

/-- Before its last tick RELEASE counts `DLY` up (R111). -/
theorem State.ownTick_release_counts {s : State} (hok : s.cfg.ok = true) (hst : s.st = .release)
    (hlt : s.dly + 1 < s.cfg.releaseTicks) : s.ownTick.registers = { s.registers with dly := s.dly + 1 } := by
  obtain ⟨-, -, -, -, -, hfit, -⟩ := config_ok_bounds hok
  have hcut : trunc s.cfg.wDly (s.dly + 1) = s.dly + 1 := trunc_of_lt (by omega)
  simp [s.ownTick_release hst, State.releaseTick, State.releaseDone, hcut, hlt.ne]

/-- A delay that counts `DLY` up has counted one for each tick as long as its limit is not reached, whatever the host's
`start` and the line do. -/
theorem State.after_counting {c : Config} {x : St} {limit : Nat} (hbusy : x.resting = false)
    (hcount : ∀ u : State, u.cfg = c → u.st = x → u.dly + 1 < limit →
      u.ownTick.registers = { u.registers with dly := u.dly + 1 })
    {s : State} {is : List Input} (hc : s.cfg = c) (hst : s.st = x) (hlt : s.dly + is.length < limit) (hnr : NoReset is) :
    (s.after is).registers = { s.registers with dly := s.dly + is.length } := by
  induction is generalizing s with
  | nil => rfl
  | cons i is ih =>
    obtain ⟨hrst, hnr⟩ := noReset_cons.mp hnr
    rw [List.length_cons] at hlt
    have hregs := hcount (s.withInput i) hc hst (by simp; omega)
    have hst' : (s.withInput i).ownTick.st = x := (congrArg Registers.st hregs).trans hst
    have hdly : (s.withInput i).ownTick.dly = s.dly + 1 := congrArg Registers.dly hregs
    rw [State.after_cons, State.tickEnd_busy hrst (by simpa [hst] using hbusy),
      ih (by simpa using hc) hst' (by omega) hnr, hregs, hdly, List.length_cons,
      Nat.add_assoc, Nat.add_comm 1]
    rfl

/-- Within WAKE every tick counts (R110). -/
theorem State.after_within_wake {s : State} {is : List Input} (hok : s.cfg.ok = true) (hst : s.st = .wake)
    (hlt : s.dly + is.length < s.cfg.wakeTicks) (hnr : NoReset is) :
    (s.after is).registers = { s.registers with dly := s.dly + is.length } :=
  State.after_counting (x := .wake) rfl
    (fun u hc hu hlt => State.ownTick_wake_counts (by rwa [hc]) hu (by rwa [hc])) rfl hst hlt hnr

/-- Within RELEASE every tick counts (R111). -/
theorem State.after_within_release {s : State} {is : List Input} (hok : s.cfg.ok = true) (hst : s.st = .release)
    (hlt : s.dly + is.length < s.cfg.releaseTicks) (hnr : NoReset is) :
    (s.after is).registers = { s.registers with dly := s.dly + is.length } :=
  State.after_counting (x := .release) rfl
    (fun u hc hu hlt => State.ownTick_release_counts (by rwa [hc]) hu (by rwa [hc])) rfl hst hlt hnr

/-- The handshake's registers, tick by tick from the acceptance on (R113): WAKE counts its delay, then RELEASE its own. -/
theorem State.after_accept_registers {s : State} {i : Input} {is : List Input} (hok : s.cfg.ok = true)
    (hq : s.st.resting = true) (hr : i.rst = false) (hs : i.start = true) (hnr : NoReset is)
    (hlt : is.length < s.cfg.wakeTicks + s.cfg.releaseTicks) :
    (s.after (i :: is)).registers =
      if is.length < s.cfg.wakeTicks then { State.reset.registers with st := .wake, dly := is.length }
      else { State.reset.registers with st := .release, dly := is.length - s.cfg.wakeTicks } := by
  rw [State.after_cons, State.tickEnd_accept (s := s.withInput i) hr hs hq]
  split
  case isTrue hwake =>
    rw [State.after_within_wake (by simpa using hok) rfl (by simpa using hwake) hnr, State.accept_dly,
      Nat.zero_add]
    rfl
  case isFalse hwake =>
    obtain ⟨ws, rs, rfl, hws⟩ : ∃ ws rs, is = ws ++ rs ∧ ws.length = s.cfg.wakeTicks :=
      ⟨_, _, (List.take_append_drop s.cfg.wakeTicks is).symm, by simp; omega⟩
    obtain ⟨hnw, hnr⟩ : NoReset ws ∧ NoReset rs := List.forall_mem_append.mp hnr
    rw [List.length_append, hws] at hlt
    have hregs := State.after_wake (s := (s.withInput i).accept) (by simpa using hok) rfl rfl hws hnw
    have hdly : ((s.withInput i).accept.after ws).dly = 0 := congrArg Registers.dly hregs
    rw [State.after_append, State.after_within_release (by simpa using hok) (congrArg Registers.st hregs)
      (by rw [hdly]; simp; omega) hnr, hregs, hdly, List.length_append, hws, Nat.zero_add, Nat.add_sub_cancel_left]
    rfl

/-- HS, tick by tick (R72). -/
theorem handshakeWave_getElem? {c : Config} {n : Nat} (h : n < c.wakeTicks + c.releaseTicks) :
    (handshakeWave c)[n]? = some (decide (n < c.wakeTicks)) := by
  rw [handshakeWave, List.getElem?_append, List.length_replicate]
  by_cases hw : n < c.wakeTicks
  · rw [if_pos hw, List.getElem?_replicate_of_lt hw, decide_eq_true hw]
  · rw [if_neg hw, List.getElem?_replicate_of_lt (by omega), decide_eq_false hw]

/-- Among the rows of the table none enters WAKE (R34). -/
theorem TableRow.st_of_wake {s t : State} (h : TableRow s t) (ht : t.st = .wake) : s.st = .wake := by
  cases h with
  | rest | wakeCount | releaseCount | count => exact ht
  | endLow data => cases data <;> cases ht
  | _ => cases ht

theorem State.driveLow_iff (s : State) : s.driveLow = true ↔ s.st = .wake := by
  rw [State.driveLow, beq_iff_eq]

/-- From the acceptance on the port shows HS until sample 0 (R72, R31). -/
theorem State.after_accept_driveLow {s : State} {i : Input} {is : List Input} (hok : s.cfg.ok = true)
    (hq : s.st.resting = true) (hr : i.rst = false) (hs : i.start = true) (hnr : NoReset is)
    (hlt : is.length < s.cfg.wakeTicks + s.cfg.releaseTicks) :
    (s.after (i :: is)).driveLow = decide (is.length < s.cfg.wakeTicks) := by
  have hst : (s.after (i :: is)).st = _ := congrArg Registers.st (State.after_accept_registers hok hq hr hs hnr hlt)
  rw [State.driveLow, hst]
  split
  case isTrue hwake => exact (decide_eq_true hwake).symm
  case isFalse hwake => exact (decide_eq_false hwake).symm

/-- Settles O16. The port follows HS by `State.after_accept_driveLow`; of the rows of the table none leads into WAKE, so only
the acceptance does. -/
theorem driveLowShowsTheHandshakeWaveform : Obligations.DriveLowShowsTheHandshakeWaveform := by
  constructor
  · intro s i is n hok hq hr hs hnr hn hlt
    have hlen : (is.take n).length = n := List.length_take_of_le hn
    have hdrive := State.after_accept_driveLow hok hq hr hs (is := is.take n)
      (fun j hj => hnr j (List.mem_of_mem_take hj)) (by omega)
    rw [hlen] at hdrive
    exact ⟨_, runOn_eq s _ hok, (handshakeWave_getElem? hlt).trans (congrArg some hdrive.symm)⟩
  · intro s t hstep ht
    rw [State.driveLow_iff] at ht ⊢
    obtain ⟨-, ⟨-, rfl⟩ | ⟨-, hstart, hq, -⟩ | ⟨-, -, hrow⟩⟩ := step_rows hstep
    · cases ht
    · exact .inr ⟨hq, hstart⟩
    · exact .inl (by simpa using hrow.st_of_wake ht)

/-! ### O35, O58: A run of samples at the level being measured -/

/-- A tick on a sample at the level being measured, which is on the port already, counts it or, at the limit, raises Timeout
(R121, R122, R124). -/
theorem State.lineTick_matching {s : State} (hok : s.cfg.ok = true) (hm : s.st.measuring = true)
    (hlt : s.cnt < s.cfg.timeoutTicks) (hinp : s.inp = ⟨false, false, some s.st.level⟩) :
    s.lineTick s.st.level =
      if s.cnt + 1 < s.cfg.timeoutTicks then { s with cnt := s.cnt + 1, tick := s.tick + 1 }
      else { s with st := .failed, err := .timeout, tick := s.tick + 1 } := by
  obtain ⟨-, hfit, -⟩ := config_ok_bounds hok
  have hin : State.withInput ⟨false, false, some s.st.level⟩ s = { s with tick := s.tick + 1 } := by
    rw [State.withInput, hinp]
  have hsample : State.sample { s with tick := s.tick + 1 } = s.st.level := State.sample_some _ _ (by rw [hinp])
  rw [State.lineTick, hin, State.ownTick_matching (s := { s with tick := s.tick + 1 }) hm hsample]
  split
  case isTrue hbelow =>
    rw [← trunc_of_lt (show s.cnt + 1 < 2 ^ s.cfg.wCnt by omega)]
    exact State.countSample_below { s with tick := s.tick + 1 } hbelow.ne
  case isFalse hlast =>
    exact State.countSample_last { s with tick := s.tick + 1 } (by simp; omega)

/-- A tick in a resting state only brings the sample to the port (R104). -/
theorem State.lineTick_resting {s : State} (hq : s.st.resting = true) (l : Level) :
    s.lineTick l = { s with inp := ⟨false, false, some l⟩, tick := s.tick + 1 } :=
  State.ownTick_resting _ hq

/-- The last sample of a run. -/
theorem runOf_succ (l : Level) (n : Nat) : runOf l (n + 1) = runOf l n ++ [l] := List.replicate_succ'

/-- A RUN OF SAMPLES at the level being measured, with that level already on the port: each is counted until the limit, where
Timeout is raised and the rest of the run is not looked at (R124). -/
theorem State.receive_level_of_inp {s : State} (hok : s.cfg.ok = true) (hm : s.st.measuring = true)
    (hlt : s.cnt < s.cfg.timeoutTicks) (hinp : s.inp = ⟨false, false, some s.st.level⟩) (n : Nat) :
    s.receive (runOf s.st.level n) =
      if s.cnt + n < s.cfg.timeoutTicks then { s with cnt := s.cnt + n, tick := s.tick + n }
      else { s with st := .failed, err := .timeout, cnt := s.cfg.timeoutTicks - 1, tick := s.tick + n } := by
  induction n with
  | zero => rw [Nat.add_zero, if_pos hlt]; rfl
  | succ n ih =>
    rw [runOf_succ, State.receive_append, ih, State.receive_cons, State.receive_nil]
    by_cases hcount : s.cnt + n < s.cfg.timeoutTicks
    · rw [if_pos hcount]
      refine (State.lineTick_matching (s := { s with cnt := s.cnt + n, tick := s.tick + n }) hok hm hcount hinp).trans ?_
      by_cases hnext : s.cnt + n + 1 < s.cfg.timeoutTicks
      · exact (if_pos hnext).trans (if_pos hnext).symm
      · have hcnt : s.cnt + n = s.cfg.timeoutTicks - 1 := by omega
        exact (if_neg hnext).trans ((if_neg hnext).trans (by rw [← hcnt]; rfl)).symm
    · rw [if_neg hcount, if_neg (by omega), State.lineTick_resting rfl, hinp]
      rfl

/-- A waveform's first tick puts its own sample on the port, so what stood there before has no part in it. -/
theorem State.receive_setInp (s : State) (i : Input) {w : List Level} (hw : w ≠ []) :
    State.receive w { s with inp := i } = s.receive w := by
  cases w with
  | nil => exact absurd rfl hw
  | cons l ls => rfl

/-- A run of at least one sample at the level being measured lengthens the phase or raises Timeout (R124). -/
theorem State.receive_level {s : State} (hok : s.cfg.ok = true) (hm : s.st.measuring = true)
    (hlt : s.cnt < s.cfg.timeoutTicks) {n : Nat} (hn : 1 ≤ n) :
    s.receive (runOf s.st.level n) =
      if s.cnt + n < s.cfg.timeoutTicks then
        { s with cnt := s.cnt + n, inp := ⟨false, false, some s.st.level⟩, tick := s.tick + n }
      else
        { s with
          st := .failed, err := .timeout, cnt := s.cfg.timeoutTicks - 1
          inp := ⟨false, false, some s.st.level⟩, tick := s.tick + n } := by
  rw [← s.receive_setInp ⟨false, false, some s.st.level⟩ (by simp [runOf]; omega)]
  exact State.receive_level_of_inp (s := { s with inp := ⟨false, false, some s.st.level⟩ }) hok hm hlt rfl n

/-- Settles O35. A count below the limit and `TIMEOUT_TICKS` more samples pass it. -/
theorem tooLongAPhaseRaisesTimeout : Obligations.TooLongAPhaseRaisesTimeout := by
  intro s n hok hm hlt hwf
  obtain ⟨hlim, -⟩ := config_ok_bounds hok
  have hn : s.cfg.timeoutTicks ≤ n := of_decide_eq_true hwf
  have hrun := State.receive_level hok hm hlt (n := n) (by omega)
  rw [if_neg (by omega)] at hrun
  exact congrArg _ hrun

/-- Settles O58. Without a low phase the symbol is a run at the level that a high phase measures. -/
theorem symbolWithoutALowPhaseLengthensTheHighPhase : Obligations.SymbolWithoutALowPhaseLengthensTheHighPhase := by
  intro s hi hok hst hwf hlt
  obtain ⟨hpos, -⟩ : 0 < hi ∧ hi < s.cfg.timeoutTicks := by simpa [Instr.wellFormed] using hwf
  have hm : s.st.measuring = true := (St.measuring_iff _).mpr (by tauto)
  have hl : s.st.level = high := by rcases hst with h | h <;> rw [h] <;> rfl
  have hrun := State.receive_level hok hm hlt hpos
  rw [hl] at hrun
  exact congrArg _ hrun

/-! ### O34: A data symbol -/

@[simp] theorem State.lineTick_cfg (s : State) (l : Level) : (s.lineTick l).cfg = s.cfg := by simp [State.lineTick]
@[simp] theorem State.lineTick_inp (s : State) (l : Level) : (s.lineTick l).inp = ⟨false, false, some l⟩ := by
  simp [State.lineTick]
@[simp] theorem State.lineTick_tick (s : State) (l : Level) : (s.lineTick l).tick = s.tick + 1 := by
  simp [State.lineTick]

/-- A PHASE that begins with the sample that ended the phase before it measures exactly its samples (R123, R129). -/
theorem State.receive_phase {s t : State} {l : Level} {n : Nat} (htick : s.lineTick l = t) (hok : t.cfg.ok = true)
    (hm : t.st.measuring = true) (hl : t.st.level = l) (hcnt : t.cnt = 1) (hpos : 1 ≤ n) (hlt : n < t.cfg.timeoutTicks) :
    s.receive (runOf l n) = { t with cnt := n, tick := s.tick + n } := by
  obtain ⟨k, rfl⟩ : ∃ k, n = k + 1 := ⟨n - 1, by omega⟩
  have hinp : t.inp = ⟨false, false, some t.st.level⟩ := by rw [hl, ← htick, State.lineTick_inp]
  have hstart : t.tick = s.tick + 1 := by rw [← htick, State.lineTick_tick]
  have hrest := State.receive_level_of_inp hok hm (by omega) hinp k
  rw [hl, hcnt, hstart, Nat.add_comm 1 k, if_pos hlt, Nat.add_assoc, Nat.add_comm 1 k] at hrest
  exact (congrArg (State.receive (runOf l k)) htick).trans hrest

/-- Each phase of a symbol has a sample and none reaches the limit (R73). -/
def LegalWidths (c : Config) (w : Nat × Nat) : Prop :=
  1 ≤ w.1 ∧ w.1 < c.timeoutTicks ∧ 1 ≤ w.2 ∧ w.2 < c.timeoutTicks

/-- A SYMBOL whose first low sample enters a low phase measures exactly its two widths (R73, R129). -/
theorem State.receive_symbolWave {s t : State} {data : Bool} {w : Nat × Nat} (htick : s.lineTick low = t)
    (hok : t.cfg.ok = true) (hst : t.st = St.measure data low) (hcnt : t.cnt = 1) (hw : LegalWidths t.cfg w) :
    s.receive (symbolWave w.1 w.2) = { t with
      st := St.measure data high, lo := w.1, cnt := w.2
      inp := ⟨false, false, some high⟩, tick := s.tick + (w.1 + w.2) } := by
  obtain ⟨hlo, hloT, hhi, hhiT⟩ := hw
  rw [symbolWave, State.receive_append, State.receive_phase htick hok (by simp [hst]) (by simp [hst]) hcnt hlo hloT]
  have hend : State.lineTick high { t with cnt := w.1, tick := s.tick + w.1 } = { t with
      st := St.measure data high, lo := w.1, cnt := 1, inp := ⟨false, false, some high⟩, tick := s.tick + w.1 + 1 } :=
    State.ownTick_endLow hst (State.sample_some _ _ rfl)
  rw [State.receive_phase hend hok (St.measure_measuring _ _) (St.measure_level _ _) rfl hhi hhiT, ← Nat.add_assoc]

/-- The low sample after the acknowledgement begins the first bit (R112). -/
theorem State.lineTick_endAck {s : State} (hst : s.st = .ackHigh) :
    s.lineTick low = { s with
      cnt := 1, idx := 0, st := .bitLow, inp := ⟨false, false, some low⟩, tick := s.tick + 1 } :=
  (State.ownTick_ackHigh (s.withInput _) hst).trans (State.ackHighTick_low _ (State.sample_some _ _ rfl))

/-- The low sample after a bit before position 39 shifts that bit in and begins the next (R127, R128). -/
theorem State.lineTick_endBit {s : State} (hok : s.cfg.ok = true) (hst : s.st = .bitHigh) (hidx : s.idx < 39) :
    s.lineTick low = { s with
      f := s.f.shiftBit s.idx s.decodedBit, idx := s.idx + 1, cnt := 1, st := .bitLow
      inp := ⟨false, false, some low⟩, tick := s.tick + 1 } := by
  obtain ⟨-, -, -, -, -, -, hfit, -⟩ := config_ok_bounds hok
  have hcut : trunc s.cfg.wIdx (s.idx + 1) = s.idx + 1 := trunc_of_lt (by omega)
  rw [State.lineTick, State.ownTick_bitHigh (s.withInput _) hst, State.bitHighTick_low _ (State.sample_some _ _ rfl),
    State.nextBit, if_neg (by simpa using hidx.ne), ← hcut]
  rfl

/-- The low sample after the bit of position 39 shifts it in and leads to VALIDATE (R128). -/
theorem State.lineTick_endLastBit {s : State} (hst : s.st = .bitHigh) (hidx : s.idx = 39) :
    s.lineTick low = { s with
      f := s.f.shiftBit s.idx s.decodedBit, st := .validate, inp := ⟨false, false, some low⟩, tick := s.tick + 1 } := by
  rw [State.lineTick, State.ownTick_bitHigh (s.withInput _) hst, State.bitHighTick_low _ (State.sample_some _ _ rfl),
    State.nextBit, if_pos (by simpa using hidx)]
  rfl

/-- A data symbol after the acknowledgement is measured for bit position 0. -/
theorem State.receive_firstSymbol {s : State} {w : Nat × Nat} (hok : s.cfg.ok = true) (hst : s.st = .ackHigh)
    (hw : LegalWidths s.cfg w) :
    s.receive (symbolWave w.1 w.2) = { s with
      idx := 0, st := .bitHigh, lo := w.1, cnt := w.2
      inp := ⟨false, false, some high⟩, tick := s.tick + (w.1 + w.2) } :=
  State.receive_symbolWave (data := true) (State.lineTick_endAck hst) hok rfl rfl hw

/-- A data symbol after another bit shifts that bit in and is measured for the next position. -/
theorem State.receive_nextSymbol {s : State} {w : Nat × Nat} (hok : s.cfg.ok = true) (hst : s.st = .bitHigh)
    (hidx : s.idx < 39) (hw : LegalWidths s.cfg w) :
    s.receive (symbolWave w.1 w.2) = { s with
      f := s.f.shiftBit s.idx s.decodedBit, idx := s.idx + 1, st := .bitHigh, lo := w.1, cnt := w.2
      inp := ⟨false, false, some high⟩, tick := s.tick + (w.1 + w.2) } :=
  State.receive_symbolWave (data := true) (State.lineTick_endBit hok hst hidx) hok rfl rfl hw

/-- Settles O34. Both symbols are received alike (`State.receive_firstSymbol`, `State.receive_nextSymbol`); the range that
tells ONE from ZERO is the comparison that decides the bit. -/
theorem dataSymbolIsMeasuredAndDecoded : Obligations.DataSymbolIsMeasuredAndDecoded := by
  intro s lo hi b hok hlo hwf
  obtain ⟨hw, hbit⟩ : LegalWidths s.cfg (lo, hi) ∧ decide (lo < hi) = b := by
    cases b <;> simp [Instr.wellFormed, LegalWidths] at hwf ⊢ <;> omega
  have hexec : exec (if b then .symOne lo hi else .symZero lo hi) s = .next (s.receive (symbolWave lo hi)) := by
    cases b <;> rfl
  rw [hexec]
  refine ⟨fun hst => ?_, fun hst hidx => ?_, fun t hl hc => ?_⟩
  · exact congrArg _ (State.receive_firstSymbol hok hst hw)
  · exact congrArg _ (State.receive_nextSymbol hok hst hidx hw)
  · rw [State.decodedBit, hl, hc, hbit]

/-! ### O36: A frame -/

/-- The Raw Frame after bits shifted in from position `p` on. -/
def Frame.shiftBits (f : Frame) (p : Nat) : List Bool → Frame
  | [] => f
  | b :: bs => (f.shiftBit p b).shiftBits (p + 1) bs

/-- Bits in two parts are shifted in part by part. -/
theorem Frame.shiftBits_append (f : Frame) (p : Nat) (bs cs : List Bool) :
    f.shiftBits p (bs ++ cs) = (f.shiftBits p bs).shiftBits (p + bs.length) cs := by
  induction bs generalizing f p with
  | nil => rfl
  | cons b bs ih => simpa [Frame.shiftBits, Nat.add_assoc, Nat.add_comm 1] using ih (f.shiftBit p b) (p + 1)

/-- Where a bit stands in the frame while the bits come in: each later bit of its byte has moved it one place up (R76). -/
theorem Frame.getLsbD_shiftBits (f : Frame) {bs : List Bool} (hlen : bs.length ≤ 40) {q : Nat} {b : Bool}
    (hq : bs[q]? = some b) :
    ((f.shiftBits 0 bs).get (q / 8)).getLsbD (min (bs.length - 1) (8 * (q / 8) + 7) - q) = b := by
  induction bs using List.reverseRecOn with
  | nil => simp at hq
  | append_singleton bs c ih =>
    rw [List.length_append, List.length_singleton] at hlen ⊢
    rw [Frame.shiftBits_append, Nat.zero_add, Frame.shiftBits, Frame.shiftBits]
    obtain hlt | rfl | hgt := lt_trichotomy q bs.length
    · rw [List.getElem?_append_left hlt] at hq
      have hprev := ih (by omega) hq
      by_cases hbyte : q / 8 = bs.length / 8
      · rw [hbyte] at hprev ⊢
        rw [Frame.get_shiftBit_same _ _ _ (by omega), shiftByte_getLsbD, if_neg (by omega), decide_eq_true (by omega),
          Bool.true_and]
        convert hprev using 2
        omega
      · rw [Frame.get_shiftBit_other _ _ _ _ hbyte]
        convert hprev using 2
        omega
    · obtain rfl : c = b := by simpa using hq
      rw [Frame.get_shiftBit_same _ _ _ (by omega), shiftByte_getLsbD, if_pos (by omega)]
    · rw [List.getElem?_eq_none (by simp; omega)] at hq
      cases hq

/-- Once all forty bits are in, the bit of position `q` stands in byte `q div 8` at bit `7 − q mod 8` (R76). -/
theorem Frame.getLsbD_shiftBits_forty (f : Frame) {bs : List Bool} (hlen : bs.length = 40) {q : Nat} {b : Bool}
    (hq : bs[q]? = some b) : ((f.shiftBits 0 bs).get (q / 8)).getLsbD (7 - q % 8) = b := by
  have hlt : q < 40 := hlen ▸ (List.getElem?_eq_some_iff.mp hq).1
  rw [← f.getLsbD_shiftBits hlen.le hq, hlen]
  congr 1
  omega

/-- The forty bits of a frame, in the order they arrive (R75). -/
def Frame.bits (f : Frame) : List Bool := (List.range 40).map fun q => (f.get (q / 8)).getLsbD (7 - q % 8)

/-- The bits of a frame, shifted in, leave that frame, whatever the Raw Frame held before (R76). -/
theorem Frame.shiftBits_bits (f g : Frame) : f.shiftBits 0 g.bits = g := by
  refine Frame.ext_get _ _ fun j hj => BitVec.eq_of_getLsbD_eq fun i hi => ?_
  have hbit : g.bits[8 * j + (7 - i)]? = some ((g.get j).getLsbD i) := by
    rw [Frame.bits, List.getElem?_map, List.getElem?_range (by omega), Option.map_some]
    congr 3 <;> omega
  have hpos := f.getLsbD_shiftBits_forty (by simp [Frame.bits]) hbit
  rwa [show (8 * j + (7 - i)) / 8 = j by omega, show 7 - (8 * j + (7 - i)) % 8 = i by omega] at hpos

/-- The samples of symbols of given widths, one after the other. -/
def symbolsWave (ws : List (Nat × Nat)) : List Level := ws.flatMap fun w => symbolWave w.1 w.2

/-- The bits that symbols of given widths stand for (R74). -/
def bitsOfWidths (ws : List (Nat × Nat)) : List Bool := ws.map fun w => decide (w.1 < w.2)

/-- THE SYMBOLS AFTER A BIT at position `IDX`, up to position 39, and one more low sample: the bit and theirs enter the
frame. -/
theorem State.receive_remainingSymbols {s : State} {ws : List (Nat × Nat)} (hok : s.cfg.ok = true) (hst : s.st = .bitHigh)
    (hidx : s.idx + ws.length = 39) (hws : ∀ w ∈ ws, LegalWidths s.cfg w) :
    ∃ cnt lo, (s.receive (symbolsWave ws ++ [low])).registers = { s.registers with
      st := .validate, idx := 39, cnt := cnt, lo := lo
      f := s.f.shiftBits s.idx (s.decodedBit :: bitsOfWidths ws) } := by
  induction ws generalizing s with
  | nil =>
    have hidx : s.idx = 39 := hidx
    refine ⟨s.cnt, s.lo, (congrArg State.registers (State.lineTick_endLastBit hst hidx)).trans ?_⟩
    rw [← hidx]
    rfl
  | cons w ws ih =>
    obtain ⟨hw, hws⟩ := List.forall_mem_cons.mp hws
    rw [List.length_cons] at hidx
    rw [symbolsWave, List.flatMap_cons, List.append_assoc, State.receive_append,
      State.receive_nextSymbol hok hst (by omega) hw]
    exact ih (s := { s with
      f := s.f.shiftBit s.idx s.decodedBit, idx := s.idx + 1, st := .bitHigh, lo := w.1, cnt := w.2
      inp := ⟨false, false, some high⟩, tick := s.tick + (w.1 + w.2) }) hok rfl (by simp; omega) hws

/-- FORTY SYMBOLS after the acknowledgement and one more low sample fill the frame (R75, R128, R131). -/
theorem State.receive_fortySymbols {s : State} {ws : List (Nat × Nat)} (hok : s.cfg.ok = true) (hst : s.st = .ackHigh)
    (hlen : ws.length = 40) (hws : ∀ w ∈ ws, LegalWidths s.cfg w) :
    ∃ cnt lo, (s.receive (symbolsWave ws ++ [low])).registers = { s.registers with
      st := .validate, idx := 39, cnt := cnt, lo := lo, f := s.f.shiftBits 0 (bitsOfWidths ws) } := by
  cases ws with
  | nil => simp at hlen
  | cons w ws =>
    obtain ⟨hw, hws⟩ := List.forall_mem_cons.mp hws
    rw [List.length_cons] at hlen
    rw [symbolsWave, List.flatMap_cons, List.append_assoc, State.receive_append, State.receive_firstSymbol hok hst hw]
    exact State.receive_remainingSymbols (s := { s with
      idx := 0, st := .bitHigh, lo := w.1, cnt := w.2
      inp := ⟨false, false, some high⟩, tick := s.tick + (w.1 + w.2) }) hok rfl (by simp; omega) hws

/-- The widths of the pseudo-operations `Z` and `O` (R88). -/
def nominalWidths (b : Bool) : Nat × Nat := (50, if b then 70 else 27)

/-- The nominal widths of a bit stand for that bit. -/
theorem bitsOfWidths_nominalWidths (bs : List Bool) : bitsOfWidths (bs.map nominalWidths) = bs := by
  rw [bitsOfWidths, List.map_map]
  exact List.map_id'' (fun b => by cases b <;> rfl) bs

/-- The nominal widths of bits give the waveforms of their pseudo-operations. -/
theorem symbolsWave_nominalWidths (bs : List Bool) : symbolsWave (bs.map nominalWidths) = bs.flatMap bitWave := by
  rw [symbolsWave, List.flatMap_map]
  congr 1
  funext b
  cases b <;> rfl

/-- The waveform of a frame is that of its forty bits, in order (R88). -/
theorem frameWave_eq_bits (f : Frame) : frameWave f.b0 f.b1 f.b2 f.b3 f.b4 = f.bits.flatMap bitWave := by
  simp [frameWave, byteWave, Frame.bits, List.range_succ, Frame.get, -BitVec.getLsbD_eq_getElem]

/-- Under a limit above 70 both pseudo-operations are symbols. -/
theorem legalWidths_nominalWidths {c : Config} (h : 70 < c.timeoutTicks) (b : Bool) :
    LegalWidths c (nominalWidths b) := by
  cases b <;> simp [LegalWidths, nominalWidths] <;> omega

/-- A FRAME after the acknowledgement and one more low sample stand in the Raw Frame, whatever it held before (R75, R76). -/
theorem State.receive_frameWave {s : State} (g : Frame) (hok : s.cfg.ok = true) (hst : s.st = .ackHigh)
    (hlim : 70 < s.cfg.timeoutTicks) :
    ∃ cnt lo, (s.receive (frameWave g.b0 g.b1 g.b2 g.b3 g.b4 ++ [low])).registers = { s.registers with
      st := .validate, idx := 39, cnt := cnt, lo := lo, f := g } := by
  have hfill := State.receive_fortySymbols (ws := g.bits.map nominalWidths) hok hst (by simp [Frame.bits])
    (List.forall_mem_map.mpr fun b _ => legalWidths_nominalWidths hlim b)
  rwa [symbolsWave_nominalWidths, bitsOfWidths_nominalWidths, Frame.shiftBits_bits, ← frameWave_eq_bits] at hfill

/-- Settles O36. FRAME is received on its waveform, and the tick of NOP on a low sample is that of the waveform's next
sample. -/
theorem frameFillsTheRawFrame : Obligations.FrameFillsTheRawFrame := by
  intro s h g sg t f c hok hst hlim
  let fr := Frame.ofFields h g sg t f c
  obtain ⟨cnt, lo, hregs⟩ := State.receive_frameWave fr hok hst hlim
  obtain ⟨hcfg, -⟩ := s.receive_frame (frameWave fr.b0 fr.b1 fr.b2 fr.b3 fr.b4)
  have hexec : exec (.frame h g sg t f c) s = .next (s.receive (frameWave fr.b0 fr.b1 fr.b2 fr.b3 fr.b4)) := rfl
  rw [State.receive_append] at hregs
  rw [hexec]
  generalize s.receive (frameWave fr.b0 fr.b1 fr.b2 fr.b3 fr.b4) = u at hregs hcfg ⊢
  obtain ⟨hst, hidx, hdly, -, -, hf, herr, htemp, hhum⟩ := Registers.mk.inj hregs
  exact ⟨u, u.lineTick low, rfl, rfl, hst, hidx, hf, hdly, herr, htemp, hhum, (u.lineTick_cfg low).trans hcfg⟩

/-! ### O7: Operations at a tick that does not select them -/

/-- Settles O7. Each meaning tests the state that selects it and is the identity elsewhere. -/
theorem unselectedOperationsWriteNothing : Obligations.UnselectedOperationsWriteNothing := by
  intro s b
  have unselected : ∀ {p : Prop} [Decidable p] (t : State), ¬p →
      (Host.Outcome.next (if p then t else s) : Result) = .next s := fun _ h => congrArg _ (if_neg h)
  refine ⟨unselected _, unselected _, unselected _, unselected _, unselected _, unselected _, unselected _, fun h => ?_,
    fun h => unselected _ ?_⟩
  · exact ⟨unselected _ (h ·.1), unselected _ (h ·.1), unselected _ (h ·.1), unselected _ (h ·.1), unselected _ (h ·.1)⟩
  · simp [State.timeoutNow, h]

/-! ### O38, O39: Words of the table -/

/-- Settles O38: the decoder computes the row of each word. -/
theorem tableWordsDecodeToTheirRows : Obligations.TableWordsDecodeToTheirRows :=
  ⟨rfl, rfl, rfl, rfl, rfl, rfl, rfl, rfl, rfl, rfl, rfl, rfl⟩

/-- Settles O39. For either value of the operand bit the word of each row is one of the table's, whose rows the decoder
computes. -/
theorem wordsOfTheTableRoundTrip : Obligations.WordsOfTheTableRoundTrip := by
  intro c b
  constructor <;> intro i hi <;> simp only [List.mem_cons, List.not_mem_nil, or_false] at hi
  · rcases hi with rfl | rfl | rfl | rfl | rfl | rfl | rfl | rfl | rfl | rfl | rfl | rfl | rfl <;> cases b <;> rfl
  · rcases hi with rfl | rfl | rfl | rfl | rfl | rfl | rfl <;> cases b <;> exact ⟨_, rfl, by simp⟩

end Sys2Proof.Machine
end

section
/-! SUPPORT. The statements of spec/40_commands.md: what NEW, MEASURE and NOP do in a resting and in a busy state, at `exec` and
at `step`, and how many ticks a waveform takes (R100 to R104). -/

namespace Sys2Proof.Machine

/-! ### O8, O9, O11: Commands in a resting state -/

/-- Settles O8: the meaning of NEW is `resetRegisters`, whatever `start` is. -/
theorem newClearsEveryRegister : Obligations.NewClearsEveryRegister :=
  fun _ _ => rfl

/-- MEASURE in a resting state is the acceptance (R102). -/
theorem exec_measure_resting {s : State} (hq : s.st.resting = true) : exec .measure s = .next s.accept :=
  congrArg _ (if_pos hq)

/-- Settles O9. The rule's three states are the resting ones, and a step with `start` alone is the acceptance too. -/
theorem measureIsAcceptedInARestingState : Obligations.MeasureIsAcceptedInARestingState := by
  intro s hst
  have hq : s.st.resting = true := (St.resting_iff _).mpr hst
  refine ⟨exec_measure_resting hq, fun i rest hok hin hrst hstart => ⟨s.present.accept, ?_, rfl, rfl⟩⟩
  rw [step_next s hok, State.present_cons hin]
  exact congrArg _ (State.tickEnd_accept hrst hstart hq)

/-- Without a command a tick is the state's own transition (R104). -/
theorem State.tickEnd_of_no_command {s : State} (hr : s.inp.rst = false) (hs : s.inp.start = false) :
    s.tickEnd = s.ownTick := by
  simp [State.tickEnd, hr, hs]

/-- Settles O11. A resting state's own transition is the identity, and presenting an input writes no register. -/
theorem nopInARestingStateChangesNothing : Obligations.NopInARestingStateChangesNothing := by
  intro s hst
  have hq : s.st.resting = true := (St.resting_iff _).mpr hst
  refine ⟨congrArg _ (s.ownTick_resting hq), fun i rest hok hin hrst hstart => ⟨_, step_next s hok, ?_⟩⟩
  have hnone : s.present.tickEnd = s.present.ownTick := by
    rw [State.present_cons hin]
    exact State.tickEnd_of_no_command hrst hstart
  rw [hnone, State.ownTick_resting _ (by rwa [State.present_st]), s.present_frame.1]

/-! ### O10: MEASURE in a busy state -/

/-- A state is its parameters, its registers and the model's own fields. -/
theorem State.eq_of_registers {s u : State} (hregs : s.registers = u.registers) (hcfg : s.cfg = u.cfg)
    (hinp : s.inp = u.inp) (hinputs : s.inputs = u.inputs) (htick : s.tick = u.tick) (htext : s.text = u.text) :
    s = u := by
  obtain ⟨hst, hidx, hdly, hcnt, hlo, hf, herr, htemp, hhum⟩ := Registers.mk.inj hregs
  cases s
  cases u
  simp_all

/-- The state's own transition does not look at `start` (R103). -/
theorem State.ownTick_setStart (s : State) (b : Bool) :
    State.ownTick { s with inp := { s.inp with start := b } } = { s.ownTick with inp := { s.inp with start := b } } := by
  have hregs : (State.ownTick { s with inp := { s.inp with start := b } }).registers = s.ownTick.registers :=
    State.ownTick_registers_congr rfl rfl fun _ => rfl
  exact State.eq_of_registers hregs (by simp) (by simp) (by simp) (by simp) (by simp)

/-- MEASURE in a busy state is the state's own transition (R103). -/
theorem exec_measure_busy {s : State} (hb : s.st.resting = false) : exec .measure s = .next s.ownTick :=
  congrArg _ (if_neg (by simp [hb]))

/-- Settles O10. In a busy state MEASURE and NOP are the state's own transition, which does not look at `start`. -/
theorem measureWhileBusyIsIgnored : Obligations.MeasureWhileBusyIsIgnored := by
  intro s b hb
  have hbusy : s.st.resting = false := by simpa [s.busy_eq] using hb
  exact ⟨s.ownTick, exec_measure_busy hbusy, rfl, congrArg _ (s.ownTick_setStart b)⟩

/-! ### O37: Waveforms, one tick per sample -/

/-- In a resting state a waveform changes no register (R104, R50). -/
theorem State.receive_resting {s : State} (hq : s.st.resting = true) (w : List Level) :
    (s.receive w).registers = s.registers := by
  induction w generalizing s with
  | nil => rfl
  | cons l ls ih =>
    have htick : (s.lineTick l).registers = s.registers := by rw [State.lineTick_resting hq]; rfl
    have hrest : (s.lineTick l).st.resting = true := by rwa [State.lineTick_resting hq]
    exact (ih hrest).trans htick

/-- A symbol or a frame, as an operation, is the receipt of its samples (log entry 8): `lo + hi` of a symbol with two phases,
`n` of a timeout. -/
theorem exec_waveform {lo hi n : Nat} {level : Level} {h g : Byte} {sg : Bool} {t : BitVec 7} {f c : Byte} {i : Instr}
    (hmem : i ∈ [Instr.symZero lo hi, .symOne lo hi, .symAck lo hi, .symTimeout level n, .frame h g sg t f c]) :
    ∃ w : List Level, (∀ s, exec i s = .next (s.receive w)) ∧
      (i ∈ [Instr.symZero lo hi, .symOne lo hi, .symAck lo hi] → w.length = lo + hi) ∧
      (i = .symTimeout level n → w.length = n) := by
  simp only [List.mem_cons, List.not_mem_nil, or_false] at hmem
  obtain rfl | rfl | rfl | rfl | rfl := hmem
  iterate 3 exact ⟨symbolWave lo hi, fun _ => rfl, fun _ => length_symbolWave lo hi, nofun⟩
  · exact ⟨_, fun _ => rfl, by simp, fun _ => List.length_replicate⟩
  · exact ⟨_, fun _ => rfl, by simp, nofun⟩

/-- Settles O37. The operation is the receipt of its samples, one tick each; a resting state does not look at them. -/
theorem waveformsTakeOneTickPerSample : Obligations.WaveformsTakeOneTickPerSample := by
  intro s lo hi n level h g sg t f c i hmem
  obtain ⟨w, hexec, hsymbol, htimeout⟩ := exec_waveform hmem
  obtain ⟨hcfg, hinputs, htext, htick⟩ := s.receive_frame w
  exact ⟨s.receive w, hexec s, hcfg, hinputs, htext, fun hq => State.receive_resting hq w,
    fun hi => by rw [htick, hsymbol hi], fun hi => by rw [htick, htimeout hi]⟩

end Sys2Proof.Machine
end

section
/-! SUPPORT. The statements of spec/41_handshake.md: one tick of WAKE, RELEASE and ACK, the handshake's timeline, the
acknowledgement's widths, and a line that never changes (R110 to R113). -/

namespace Sys2Proof.Machine

/-! ### O12, O13, O14: One tick of each micro-operation -/

/-- One tick of WAKE counts the pulse or ends it (R110). -/
theorem State.wakeTick_eq (s : State) :
    s.wakeTick = if s.dly + 1 = s.cfg.wakeTicks then { s with st := .release, dly := 0 }
      else { s with dly := trunc s.cfg.wDly (s.dly + 1) } := by
  simp only [State.wakeTick, State.wakeDone, decide_eq_true_eq]

/-- One tick of RELEASE counts the wait or ends it (R111). -/
theorem State.releaseTick_eq (s : State) :
    s.releaseTick = if s.dly + 1 = s.cfg.releaseTicks then { s with st := .ackLow, dly := 0, cnt := 0 }
      else { s with dly := trunc s.cfg.wDly (s.dly + 1) } := by
  simp only [State.releaseTick, State.releaseDone, decide_eq_true_eq]

/-- A sample at the measured level raises Timeout or is counted (R124). -/
theorem State.countSample_eq (s : State) :
    s.countSample = if s.cnt + 1 = s.cfg.timeoutTicks then { s with st := .failed, err := .timeout }
      else { s with cnt := trunc s.cfg.wCnt (s.cnt + 1) } := by
  rcases s.countSample_cases with ⟨hlast, h⟩ | ⟨hne, h⟩
  · exact h.trans (if_pos hlast).symm
  · exact h.trans (if_neg hne).symm

/-- Settles O12: in WAKE the operation is the state's tick. -/
theorem wakeCountsTheWakePulse : Obligations.WakeCountsTheWakePulse :=
  fun s hst => congrArg _ ((if_pos hst).trans s.wakeTick_eq)

/-- Settles O13: in RELEASE the operation is the state's tick. -/
theorem releaseCountsTheWait : Obligations.ReleaseCountsTheWait :=
  fun s hst => congrArg _ ((if_pos hst).trans s.releaseTick_eq)

/-- Settles O14. In either phase a sample at the other level ends it and one at its own level is counted. -/
theorem ackMeasuresAndDiscards : Obligations.AckMeasuresAndDiscards := by
  refine ⟨fun s hst => congrArg Host.Outcome.next ?_, fun s hst => congrArg Host.Outcome.next ?_⟩
  · rw [State.ackOp_selected hst, s.ownTick_ackLow hst]
    cases hs : s.sample
    · rw [s.lowTick_low _ hs, if_neg Bool.false_ne_true, s.countSample_eq]
    · exact s.lowTick_high _ hs
  · rw [State.ackOp_selected hst, s.ownTick_ackHigh hst]
    cases hs : s.sample
    · exact s.ackHighTick_low hs
    · rw [s.ackHighTick_high hs, if_neg Bool.false_ne_true.symm, s.countSample_eq]

/-! ### O15: The timeline -/

/-- Settles O15. The registers of the whole handshake are known tick by tick (`State.after_accept_registers`), and at its
end (`State.after_handshake`). -/
theorem handshakeKeepsItsTimeline : Obligations.HandshakeKeepsItsTimeline := by
  rintro s ⟨rst, start, line⟩ is hok hq rfl rfl hnr
  have hnr : ∀ n, NoReset (is.take n) := fun n i hi => hnr i (List.mem_of_mem_take hi)
  refine ⟨fun n hn hle => ⟨_, runOn_eq s _ hok, ?_⟩, fun n hn hle => ⟨_, runOn_eq s _ hok, ?_⟩,
    fun hle => ⟨_, runOn_eq s _ hok, ?_⟩⟩
  · have hlen : (is.take n).length = n := List.length_take_of_le hle
    have hregs := State.after_accept_registers hok hq (i := ⟨false, true, line⟩) rfl rfl (hnr n) (by omega)
    rw [hlen, if_pos hn] at hregs
    have hst : (s.after (⟨false, true, line⟩ :: is.take n)).st = .wake := congrArg Registers.st hregs
    exact ⟨hst, congrArg Registers.dly hregs, congrArg (· == St.wake) hst⟩
  · have hlen : (is.take (s.cfg.wakeTicks + n)).length = s.cfg.wakeTicks + n := List.length_take_of_le hle
    have hregs := State.after_accept_registers hok hq (i := ⟨false, true, line⟩) rfl rfl (hnr (s.cfg.wakeTicks + n))
      (by omega)
    rw [hlen, if_neg (by omega), Nat.add_sub_cancel_left] at hregs
    have hst : (s.after (⟨false, true, line⟩ :: is.take (s.cfg.wakeTicks + n))).st = .release :=
      congrArg Registers.st hregs
    exact ⟨hst, congrArg Registers.dly hregs, congrArg (· == St.wake) hst⟩
  · have hregs := State.after_handshake line hok hq (List.length_take_of_le hle) (hnr _)
    exact ⟨congrArg Registers.st hregs, congrArg Registers.dly hregs, congrArg Registers.cnt hregs⟩

/-! ### O33: The acknowledgement's widths -/

/-- A HIGH PHASE after a low one latches the low count and measures exactly its samples (R121, R123, R129). -/
theorem State.receive_highPhase {s : State} {data : Bool} {hi : Nat} (hok : s.cfg.ok = true)
    (hst : s.st = St.measure data low) (hpos : 1 ≤ hi) (hlt : hi < s.cfg.timeoutTicks) :
    s.receive (runOf high hi) = { s with
      st := St.measure data high, lo := s.cnt, cnt := hi
      inp := ⟨false, false, some high⟩, tick := s.tick + hi } := by
  have hend : s.lineTick high = { s with
      st := St.measure data high, lo := s.cnt, cnt := 1, inp := ⟨false, false, some high⟩, tick := s.tick + 1 } :=
    State.ownTick_endLow hst (State.sample_some _ _ rfl)
  exact State.receive_phase hend hok (St.measure_measuring _ _) (St.measure_level _ _) rfl hpos hlt

/-- Settles O33. ACK_LOW counts the low samples, if there are any, and the first high one latches their number. -/
theorem acknowledgementSymbolIsMeasured : Obligations.AcknowledgementSymbolIsMeasured := by
  intro s lo hi hok hst hcnt hwf
  obtain ⟨⟨hlo, hpos⟩, hhi⟩ : (lo < s.cfg.timeoutTicks ∧ 1 ≤ hi) ∧ hi < s.cfg.timeoutTicks := by
    simpa [Instr.wellFormed] using hwf
  have hne : symbolWave lo hi ≠ [] := List.ne_nil_of_length_pos (by rw [length_symbolWave]; omega)
  have hlevel : s.st.level = low := by rw [hst]; rfl
  have hcount : s.cnt + lo = lo := by rw [hcnt, Nat.zero_add]
  have hlow := State.receive_level_of_inp (s := { s with inp := ⟨false, false, some s.st.level⟩ }) hok
    (by rw [hst]; rfl) (by rw [hcnt]; exact Nat.zero_lt_of_lt hlo) rfl lo
  simp only [hlevel, hcount, if_pos hlo] at hlow
  refine congrArg Host.Outcome.next ?_
  rw [← s.receive_setInp ⟨false, false, some low⟩ hne, symbolWave, State.receive_append, hlow]
  exact (State.receive_highPhase (s := { s with cnt := lo, inp := ⟨false, false, some low⟩, tick := s.tick + lo })
    (data := false) hok hst hpos hhi).trans (by rw [Nat.add_assoc]; rfl)

/-! ### O53: A line that never changes -/

/-- A RUN OF TICKS on the level being measured, the host not resetting the block: each sample is counted, and the one that
reaches the limit raises Timeout (R121, R122, R124). -/
theorem State.after_matching {s : State} {is : List Input} (hok : s.cfg.ok = true) (hm : s.st.measuring = true)
    (hlt : s.cnt < s.cfg.timeoutTicks) (hle : s.cnt + is.length ≤ s.cfg.timeoutTicks) (hnr : NoReset is)
    (hline : ∀ i ∈ is, i.line = some s.st.level) :
    (s.after is).registers =
      if s.cnt + is.length < s.cfg.timeoutTicks then { s.registers with cnt := s.cnt + is.length }
      else { s.registers with st := .failed, err := .timeout, cnt := s.cfg.timeoutTicks - 1 } := by
  induction is generalizing s with
  | nil => exact (if_pos hlt).symm
  | cons i is ih =>
    obtain ⟨hrst, hnr⟩ := noReset_cons.mp hnr
    obtain ⟨hi, hline⟩ := List.forall_mem_cons.mp hline
    rw [List.length_cons] at hle ⊢
    rw [State.after_cons, State.tickEnd_busy (s := s.withInput i) hrst (St.resting_of_measuring hm),
      State.ownTick_matching (s := s.withInput i) hm (State.sample_some _ _ hi)]
    by_cases hlast : s.cnt + 1 = s.cfg.timeoutTicks
    · obtain rfl : is = [] := List.length_eq_zero_iff.mp (by omega)
      rw [State.after_nil, State.countSample_last (s.withInput i) hlast, if_neg (by simp; omega), ← hlast]
      rfl
    · obtain ⟨-, hfit, -⟩ := config_ok_bounds hok
      have hcut : trunc s.cfg.wCnt (s.cnt + 1) = s.cnt + 1 := trunc_of_lt (by omega)
      have hcount : (s.withInput i).countSample = { s.withInput i with cnt := s.cnt + 1 } :=
        hcut ▸ State.countSample_below (s.withInput i) hlast
      rw [hcount, ih (s := { s.withInput i with cnt := s.cnt + 1 }) hok hm (by simp; omega) (by simp; omega) hnr hline]
      simp [Nat.add_assoc, Nat.add_comm 1]

/-- SAMPLE 0 is counted in ACK_LOW if it is low; if it is high it ends a low phase without samples and is the first of
ACK_HIGH (R112). -/
theorem State.onSample_zero_registers {s : State} {start : Nat → Bool} {σ : Nat → Level} (hok : s.cfg.ok = true)
    (hregs : s.registers = { State.reset.registers with st := .ackLow }) :
    (s.onSample start σ 0).registers = { State.reset.registers with st := St.measure false (σ 0), cnt := 1 } := by
  obtain ⟨hlim, hfit, -⟩ := config_ok_bounds hok
  have hst : s.st = .ackLow := congrArg Registers.st hregs
  have hcnt : s.cnt = 0 := congrArg Registers.cnt hregs
  have hcut : trunc s.cfg.wCnt (s.cnt + 1) = 1 := by rw [hcnt]; exact trunc_of_lt (by omega)
  rw [State.onSample, State.tickEnd_busy rfl (by rw [State.withInput_st, hst]; rfl),
    State.ownTick_ackLow (s.withInput _) hst]
  cases hσ : σ 0
  · rw [State.lowTick_low _ _ (State.sample_some _ _ rfl), State.countSample_below _ (by simp [hcnt]; omega)]
    change { s.registers with cnt := trunc s.cfg.wCnt (s.cnt + 1) } = _
    rw [hregs, hcut]
    rfl
  · rw [State.lowTick_high _ _ (State.sample_some _ _ rfl)]
    change { s.registers with lo := s.cnt, cnt := 1, st := .ackHigh } = _
    rw [hregs, hcnt]
    rfl

/-- A run over samples takes sample 0 first. -/
theorem State.after_samplesOf_succ (s : State) (start : Nat → Bool) (σ : Nat → Level) (n : Nat) :
    s.after (samplesOf start σ (n + 1)) = (s.onSample start σ 0).after (samplesFrom start σ 1 n) := by
  rw [samplesOf_eq, samplesFrom, List.range'_succ]
  rfl

/-- From sample 0 on, a line that never changes is measured in one phase until Timeout ends the run (R112). -/
theorem State.after_stuckLine {s : State} (start : Nat → Bool) (level : Level) (n : Nat) (hok : s.cfg.ok = true)
    (hregs : s.registers = { State.reset.registers with st := .ackLow }) (hn : n < s.cfg.timeoutTicks) :
    (s.after (samplesOf start (fun _ => level) (n + 1))).registers =
      if n + 1 < s.cfg.timeoutTicks then
        { State.reset.registers with st := St.measure false level, cnt := n + 1 }
      else { State.reset.registers with st := .failed, err := .timeout, cnt := s.cfg.timeoutTicks - 1 } := by
  obtain ⟨hlim, -⟩ := config_ok_bounds hok
  have hfirst := State.onSample_zero_registers (start := start) (σ := fun _ => level) hok hregs
  have hcfg : (s.onSample start (fun _ => level) 0).cfg = s.cfg := by simp [State.onSample]
  rw [State.after_samplesOf_succ]
  generalize s.onSample start (fun _ => level) 0 = u at hfirst hcfg ⊢
  have hst : u.st = St.measure false level := congrArg Registers.st hfirst
  have hcnt : u.cnt = 1 := congrArg Registers.cnt hfirst
  have hlen : (samplesFrom start (fun _ => level) 1 n).length = n := by simp [samplesFrom]
  have hnr : NoReset (samplesFrom start (fun _ => level) 1 n) := List.forall_mem_map.mpr fun _ _ => rfl
  have hline : ∀ i ∈ samplesFrom start (fun _ => level) 1 n, i.line = some u.st.level :=
    List.forall_mem_map.mpr fun _ _ => by rw [hst, St.measure_level]
  rw [State.after_matching (hcfg ▸ hok) (by rw [hst, St.measure_measuring]) (by rw [hcfg]; omega) (by rw [hcfg]; omega)
    hnr hline, hfirst, hcnt, hlen, hcfg, Nat.add_comm 1]

/-- Settles O53. After the handshake the block stands before sample 0, and `State.after_stuckLine` follows the samples. -/
theorem aStuckLineTimesOut : Obligations.AStuckLineTimesOut := by
  intro s line hs start level hok hq hlen hnr
  have hregs := State.after_handshake line hok hq hlen hnr
  have hrun : ∀ n, runOn s (measureInputs line hs (samplesOf start (fun _ => level) n)) = .next
      (((s.after (⟨false, true, line⟩ :: hs)).after (samplesOf start (fun _ => level) n)).setInputs []) := by
    intro n
    rw [runOn_eq s _ hok, measureInputs, State.after_append]
  have hcfg := s.after_cfg (⟨false, true, line⟩ :: hs)
  generalize s.after (⟨false, true, line⟩ :: hs) = u at hregs hrun hcfg
  obtain ⟨hlim, -⟩ := config_ok_bounds hok
  have hstuck := fun n hn => State.after_stuckLine start level n (hcfg ▸ hok) hregs hn
  rw [hcfg] at hstuck
  refine ⟨⟨_, hrun _, ?_⟩, fun n hn => ⟨_, hrun n, ?_⟩⟩
  · have hend := hstuck (s.cfg.timeoutTicks - 1) (by omega)
    rwa [Nat.sub_add_cancel (by omega), if_neg (Nat.lt_irrefl _)] at hend
  · cases n with
    | zero => exact .inl (congrArg Registers.st hregs)
    | succ n =>
      have hst := (congrArg Registers.st (hstuck n (by omega))).trans (congrArg Registers.st (if_pos hn))
      cases level
      · exact .inl hst
      · exact .inr hst

end Sys2Proof.Machine
end

section
/-! SUPPORT. The statements of spec/42_pulse_discriminator.md: what one tick of PULSE.L, PULSE.H, RDBIT and SHIFT writes, the one
tick that raises Timeout, the duration `Pulse(level)` answers, and the frame that forty symbols fill (R120 to R129). -/

namespace Sys2Proof.Machine

/-! ### O22: The duration level's measurement -/

section
variable {limit : Nat} {level : Level} {σ : Nat → Level} {pos : Nat}

/-- Samples at the level being measured, below the limit, are counted one by one (R120). -/
theorem pulseLoop_run {m n : Nat} (fuel : Nat) (hrun : ∀ k, k < m → σ (pos + k) = level) (hlt : n + m < limit) :
    pulseLoop limit level σ (fuel + m) n pos = pulseLoop limit level σ fuel (n + m) (pos + m) := by
  induction m generalizing n pos with
  | zero => rfl
  | succ m ih =>
    have hhead : σ pos = level := hrun 0 (Nat.succ_pos m)
    have htail : ∀ k, k < m → σ (pos + 1 + k) = level := fun k hk => by
      rw [Nat.add_right_comm]
      exact hrun (k + 1) (Nat.succ_lt_succ hk)
    rw [← Nat.add_assoc, pulseLoop, if_neg (not_not.mpr hhead), if_neg (by omega), ih htail (by omega),
      Nat.add_right_comm n, Nat.add_right_comm pos]
    rfl

/-- A run of samples below the limit is measured at the sample that ends it (R120). -/
theorem pulse_of_run {n : Nat} (hlt : n < limit) (hrun : ∀ k, k < n → σ (pos + k) = level)
    (hend : σ (pos + n) ≠ level) : pulse limit level σ pos = .measured n (pos + n) := by
  obtain ⟨fuel, hfuel⟩ : ∃ fuel, limit = fuel + 1 + n := ⟨limit - n - 1, by omega⟩
  have hloop := pulseLoop_run (fuel + 1) hrun ((Nat.zero_add n).symm ▸ hlt)
  rwa [← hfuel, Nat.zero_add, pulseLoop, if_pos hend] at hloop

/-- `TIMEOUT_TICKS` samples at the level raise Timeout at the last of them (R120). -/
theorem pulse_of_stuck (hlim : 1 ≤ limit) (hall : ∀ k, k < limit → σ (pos + k) = level) :
    pulse limit level σ pos = .timeout (pos + limit - 1) := by
  obtain ⟨n, rfl⟩ : ∃ n, limit = 1 + n := ⟨limit - 1, by omega⟩
  have hrun : ∀ k, k < n → σ (pos + k) = level := fun k hk => hall k (by omega)
  have hlast : σ (pos + n) = level := hall n (by omega)
  have hloop := pulseLoop_run (limit := 1 + n) (n := 0) 1 hrun (by omega)
  rw [pulseLoop, if_neg (not_not.mpr hlast), if_pos (by omega)] at hloop
  exact hloop.trans (congrArg _ (by omega))

end

/-- The level's run ends below the limit, or every sample up to the limit shows the level. -/
theorem run_or_stuck (limit : Nat) (level : Level) (σ : Nat → Level) (pos : Nat) :
    (∃ n, n < limit ∧ (∀ k, k < n → σ (pos + k) = level) ∧ σ (pos + n) ≠ level) ∨
    ∀ k, k < limit → σ (pos + k) = level := by
  induction limit with
  | zero => exact .inr nofun
  | succ limit ih =>
    obtain ⟨n, hlt, hrun, hend⟩ | hall := ih
    · exact .inl ⟨n, Nat.lt_succ_of_lt hlt, hrun, hend⟩
    by_cases hnext : σ (pos + limit) = level
    · exact .inr (Nat.forall_lt_succ_right.mpr ⟨hall, hnext⟩)
    · exact .inl ⟨limit, Nat.lt_succ_self limit, hall, hnext⟩

/-- Settles O22. Either the run ends below the limit or it does not (`run_or_stuck`), and `Pulse` has one answer in each
case. -/
theorem pulseMeasuresARunOfSamples : Obligations.PulseMeasuresARunOfSamples := by
  intro limit level σ pos hlim
  refine ⟨fun n p => ⟨fun h => ?_, ?_⟩, fun p => ⟨fun h => ?_, ?_⟩⟩
  · obtain ⟨m, hlt, hrun, hend⟩ | hall := run_or_stuck limit level σ pos
    · obtain ⟨rfl, rfl⟩ := PulseEnd.measured.inj ((pulse_of_run hlt hrun hend).symm.trans h)
      exact ⟨hlt, rfl, hrun, hend⟩
    · cases (pulse_of_stuck hlim hall).symm.trans h
  · rintro ⟨hlt, rfl, hrun, hend⟩
    exact pulse_of_run hlt hrun hend
  · obtain ⟨m, hlt, hrun, hend⟩ | hall := run_or_stuck limit level σ pos
    · cases (pulse_of_run hlt hrun hend).symm.trans h
    · exact ⟨(PulseEnd.timeout.inj ((pulse_of_stuck hlim hall).symm.trans h)).symm, hall⟩
  · rintro ⟨rfl, hall⟩
    exact pulse_of_stuck hlim hall

/-! ### O21: Timeout at the limit -/

/-- From a measuring state the only row of the table that leads to FAILED is Timeout's (R34, R124). -/
theorem TableRow.timeout_of_failed {s t : State} (h : TableRow s t) (hm : s.st.measuring = true) (ht : t.st = .failed) :
    (s.sample = s.st.level ∧ s.cnt + 1 = s.cfg.timeoutTicks) ∧ t = s.raise .timeout := by
  have hst : s.st ≠ .failed := fun hst => by rw [hst] at hm; cases hm
  cases h with
  | timeout _ hs hlast => exact ⟨⟨hs, hlast⟩, rfl⟩
  | mismatch hval => rw [hval] at hm; cases hm
  | endLow data => cases data <;> cases ht
  | rest | wakeCount | releaseCount | count => exact absurd ht hst
  | _ => cases ht

/-- Settles O21. NOP is the state's own transition, a row of the table; a matching sample at the limit takes Timeout's. -/
theorem timeoutAtExactlyTheLimit : Obligations.TimeoutAtExactlyTheLimit := by
  intro s hm
  have hfailed := s.ownTick_row.timeout_of_failed hm
  refine ⟨s.ownTick, rfl, ⟨fun ht => (hfailed ht).1, fun ⟨hs, hlast⟩ => ?_⟩, fun ht => (hfailed ht).2⟩
  rw [State.ownTick_matching hm hs, s.countSample_last hlast, State.raise_st]

/-! ### O19: One tick of each phase -/

/-- A level is high or low, so a test for one is a test for the other. -/
theorem ite_high_eq_ite_low {α : Type} (l : Level) (a b : α) :
    (if l = high then a else b) = if l = low then b else a := by
  cases l <;> rfl

/-- One tick of a low phase ends it at a high sample and counts a low one (R121). -/
theorem State.lowTick_eq (next : St) (s : State) :
    s.lowTick next = if s.sample = high then s.endLow next else s.countSample :=
  (ite_high_eq_ite_low _ _ _).symm

/-- One tick of the acknowledgement's high phase ends it at a low sample and counts a high one (R122). -/
theorem State.ackHighTick_eq (s : State) :
    s.ackHighTick = if s.sample = low then s.endAck else s.countSample :=
  ite_high_eq_ite_low _ _ _

/-- One tick of a data bit's high phase shifts the bit in and moves on at a low sample and counts a high one (R122). -/
theorem State.bitHighTick_eq (s : State) :
    s.bitHighTick = if s.sample = low then s.shiftIn.nextBit else s.countSample :=
  ite_high_eq_ite_low _ _ _

/-- Settles O19. Each phase is the tick of its state. -/
theorem rdbitMeasuresBothPhases : Obligations.RdbitMeasuresBothPhases := by
  refine ⟨fun s hst => congrArg Host.Outcome.next ?_, fun s hst => congrArg Host.Outcome.next ?_⟩
  · rw [State.rdbitOp_selected hst, s.ownTick_bitLow hst, State.lowTick_eq, s.countSample_eq]
    rfl
  · rw [State.rdbitOp_selected hst, s.ownTick_bitHigh hst, State.bitHighTick_eq, s.countSample_eq]
    rfl

/-! ### O17, O18: The same ticks where no sum is cut -/

/-- Under R8 a count below the limit is raised by one uncut (R124). -/
theorem State.countSample_uncut {s : State} (hok : s.cfg.ok = true) (hlt : s.cnt < s.cfg.timeoutTicks) :
    s.countSample = if s.cnt + 1 = s.cfg.timeoutTicks then { s with st := .failed, err := .timeout }
      else { s with cnt := s.cnt + 1 } := by
  obtain ⟨-, hfit, -⟩ := config_ok_bounds hok
  rw [s.countSample_eq, trunc_of_lt (by omega)]

/-- Under R8 the bit loop raises a position of the frame by one uncut (R128). -/
theorem State.nextBit_uncut {s : State} (hok : s.cfg.ok = true) (hidx : s.idx ≤ 39) :
    s.nextBit = if s.idx = 39 then { s with st := .validate }
      else { s with idx := s.idx + 1, cnt := 1, st := .bitLow } := by
  obtain ⟨-, -, -, -, -, -, hfit, -⟩ := config_ok_bounds hok
  rcases s.nextBit_cases with ⟨hlast, h⟩ | ⟨hne, h⟩
  · exact h.trans (if_pos hlast).symm
  · rw [h, if_neg hne, trunc_of_lt (by omega)]

/-- Settles O17. PULSE.L is the tick of its low phase, of the acknowledgement or of a data bit. -/
theorem pulseLowMeasuresTheLowPhase : Obligations.PulseLowMeasuresTheLowPhase := by
  intro s data hok hlt hst
  have hsel : s.st = St.measure data low := by cases data <;> exact hst
  have hnext : (if data then St.bitHigh else .ackHigh) = St.measure data high := by cases data <;> rfl
  rw [hnext, ← State.countSample_uncut hok hlt]
  exact congrArg _ ((if_pos hsel).trans (State.lowTick_eq _ s))

/-- Settles O18. PULSE.H is the tick of its high phase, of a data bit or of the acknowledgement. -/
theorem pulseHighMeasuresTheHighPhase : Obligations.PulseHighMeasuresTheHighPhase := by
  intro s hok hlt hidx
  rw [← State.countSample_uncut hok hlt]
  refine ⟨fun hst => congrArg Host.Outcome.next ?_, fun hst => congrArg Host.Outcome.next ?_⟩
  · have hbit := State.nextBit_uncut (s := s.shiftIn) hok hidx
    rw [State.pulseHighOp_selected hst, s.ownTick_bitHigh hst, State.bitHighTick_eq, hbit]
    rfl
  · rw [State.pulseHighOp_selected hst, s.ownTick_ackHigh hst, State.ackHighTick_eq]
    rfl

/-! ### O20: SHIFT -/

/-- The bit loop writes no byte of the frame (R128). -/
@[simp] theorem State.nextBit_f (s : State) : s.nextBit.f = s.f := by
  rcases s.nextBit_cases with ⟨-, h⟩ | ⟨-, h⟩ <;> rw [h]

/-- The decoded bit as the byte that enters at bit 0 (R126, R127). -/
theorem State.decodedBit_byte (s : State) :
    (BitVec.ofBool s.decodedBit).setWidth 8 = if s.lo < s.cnt then 1#8 else 0#8 := by
  by_cases h : s.lo < s.cnt <;> simp [State.decodedBit, h]

/-- Settles O20. SHIFT writes the one byte of `Frame.shiftBit`, and the rest of the tick none. -/
theorem shiftPutsTheBitIntoItsByte : Obligations.ShiftPutsTheBitIntoItsByte := by
  intro s hst hs hidx
  refine ⟨s.shiftIn, s.ownTick, congrArg _ (if_pos ⟨hst, hs⟩), rfl, ?_, fun j hj => s.f.get_shiftBit_other _ _ _ hj, rfl, ?_⟩
  · rw [← s.decodedBit_byte]
    exact s.f.get_shiftBit_same _ _ (by omega)
  · rw [s.ownTick_bitHigh hst, s.bitHighTick_low hs, State.nextBit_f]

/-! ### O55: Forty symbols -/

/-- A run over the inputs of a waveform is the receipt of its samples: they carry no command. -/
theorem State.after_waveInputs (s : State) (w : List Level) : s.after (waveInputs w) = s.receive w := by
  induction w generalizing s with
  | nil => rfl
  | cons l ls ih =>
    have htick : (s.withInput ⟨false, false, some l⟩).tickEnd = s.lineTick l := State.tickEnd_of_no_command rfl rfl
    rw [State.receive_cons, ← htick]
    exact ih _

/-- THE WHOLE TRACE from sample 0: after the acknowledgement the forty symbols fill the frame (R112, R129, R76). -/
theorem State.receive_ackAndFortySymbols {s : State} {a₀ a₁ : Nat} {ws : List (Nat × Nat)} (hok : s.cfg.ok = true)
    (hst : s.st = .ackLow) (hcnt : s.cnt = 0) (ha₀ : a₀ < s.cfg.timeoutTicks) (hpos : 1 ≤ a₁)
    (ha₁ : a₁ < s.cfg.timeoutTicks) (hlen : ws.length = 40) (hws : ∀ w ∈ ws, LegalWidths s.cfg w) :
    ∃ cnt lo, (s.receive (symbolWave a₀ a₁ ++ (symbolsWave ws ++ [low]))).registers = { s.registers with
      st := .validate, idx := 39, cnt := cnt, lo := lo, f := s.f.shiftBits 0 (bitsOfWidths ws) } := by
  have hwf : (Instr.symAck a₀ a₁).wellFormed s.cfg = true := by simp [Instr.wellFormed, ha₀, hpos, ha₁]
  have hack := Host.Outcome.next.inj (acknowledgementSymbolIsMeasured s a₀ a₁ hok hst hcnt hwf)
  rw [State.receive_append, hack]
  exact State.receive_fortySymbols hok rfl hlen hws

/-- Settles O55. The handshake ends before sample 0 with a clear frame; there the trace shifts in the forty bits, each of which
`Frame.getLsbD_shiftBits_forty` finds at its place. -/
theorem fortySymbolsFillTheFrame : Obligations.FortySymbolsFillTheFrame := by
  intro s line hs a₀ a₁ ws hok hq hlen hnr ha₀ hpos ha₁ hforty hws
  have hregs := State.after_handshake line hok hq hlen hnr
  have hcfg := s.after_cfg (⟨false, true, line⟩ :: hs)
  refine ⟨_, runOn_eq s _ hok, ?_⟩
  rw [measureInputs, State.after_append, State.after_waveInputs, List.append_assoc]
  generalize s.after (⟨false, true, line⟩ :: hs) = u at hregs hcfg ⊢
  rw [← hcfg] at hok ha₀ ha₁ hws
  obtain ⟨cnt, lo, hend⟩ := State.receive_ackAndFortySymbols hok (congrArg Registers.st hregs)
    (congrArg Registers.cnt hregs) ha₀ hpos ha₁ hforty hws
  obtain ⟨hst, -, -, -, -, hf, -⟩ := Registers.mk.inj hend
  refine ⟨hst, fun p w hp => ?_⟩
  have hbit : (bitsOfWidths ws)[p]? = some (decide (w.1 < w.2)) := by rw [bitsOfWidths, List.getElem?_map, hp]; rfl
  have hplace := u.f.getLsbD_shiftBits_forty (by simp [bitsOfWidths, hforty]) hbit
  rwa [← hf] at hplace

end Sys2Proof.Machine
end

section
/-! SUPPORT. The statements of spec/43_checksum_extract.md: what CSUM, XHUM and XTEMP write on a valid and on an invalid frame, the
one tick of VALIDATE, the ranges of the two values, and the nominal trace of a frame (R140 to R147). -/

namespace Sys2Proof.Machine

/-! ### O23, O24, O25: CSUM, XHUM and XTEMP -/

/-- The checksum is valid exactly when the bytes' sum, modulo 256, is byte 4 (R140). -/
theorem Frame.sum_eq_csum_iff (f : Frame) :
    f.sum = f.csum ↔ (f.b0.toNat + f.b1.toNat + f.b2.toNat + f.b3.toNat) % 256 = f.b4.toNat := by
  simp [Frame.sum, Frame.csum, ← BitVec.toNat_inj]

theorem State.checksumOk_iff (s : State) : s.checksumOk = true ↔ s.f.sum = s.f.csum := beq_iff_eq

/-- The sign flag says that byte 2 is at least 128 (R77). -/
theorem Frame.tSign_eq_decide (f : Frame) : f.tSign = decide (128 ≤ f.b2.toNat) :=
  (BitVec.msb_eq_getLsbD_last f.b2).symm.trans (BitVec.msb_eq_decide f.b2)

/-- The Temperature in numbers: the sign times the magnitude (R143). -/
theorem Frame.temperature_eq (f : Frame) :
    f.temperature = (if f.b2.toNat < 128 then 1 else -1) * ((f.b2.toNat % 128 * 10 + f.b3.toNat : Nat) : Int) := by
  rw [Frame.temperature, Frame.tSign_eq_decide, Frame.magnitude_eq]
  by_cases hsign : f.b2.toNat < 128
  · rw [if_neg (by simpa using hsign), if_pos hsign, one_mul]
  · rw [if_pos (by simpa using hsign), if_neg hsign, neg_one_mul]

section
variable {s : State} (hst : s.st = .validate)
include hst

/-- In VALIDATE, CSUM raises ChecksumMismatch on an invalid frame (R140). -/
theorem State.csumOp_eq : s.csumOp = if s.f.sum = s.f.csum then s else s.raise .checksumMismatch := by
  by_cases hc : s.f.sum = s.f.csum <;> simp [State.csumOp, State.checksumOk, hst, hc]

/-- In VALIDATE, XHUM writes the Humidity of a valid frame (R142). -/
theorem State.xhumOp_eq :
    s.xhumOp = if s.f.sum = s.f.csum then { s with hum := trunc s.cfg.wVal s.f.humidity } else s := by
  simp only [State.xhumOp, hst, s.checksumOk_iff, true_and]

/-- In VALIDATE, XTEMP writes the Temperature of a valid frame (R143). -/
theorem State.xtempOp_eq :
    s.xtempOp = if s.f.sum = s.f.csum then { s with temp := truncSigned s.cfg.wVal s.f.temperature } else s := by
  simp only [State.xtempOp, hst, s.checksumOk_iff, true_and]

end

/-- Settles O23. The byte comparison is that of the sum modulo 256. -/
theorem csumRaisesOnAMismatch : Obligations.CsumRaisesOnAMismatch := by
  intro s hst
  simp only [← Frame.sum_eq_csum_iff]
  exact congrArg _ (State.csumOp_eq hst)

/-- Settles O24. On a valid frame the one write is the Humidity, which R8 leaves uncut; on an invalid one there is none. -/
theorem xhumExtractsTheHumidity : Obligations.XhumExtractsTheHumidity := by
  intro s hst
  refine ⟨s.xhumOp, rfl, ?_⟩
  rw [State.xhumOp_eq hst]
  by_cases hc : s.f.sum = s.f.csum
  · rw [if_pos hc]
    exact ⟨rfl, fun _ => ⟨rfl, fun hok => Frame.trunc_humidity hok s.f⟩, fun hne => absurd hc hne⟩
  · rw [if_neg hc]
    exact ⟨rfl, fun heq => absurd heq hc, fun _ => rfl⟩

/-- Settles O25. On a valid frame the one write is the Temperature, which R8 leaves uncut; on an invalid one there is none. -/
theorem xtempExtractsTheTemperature : Obligations.XtempExtractsTheTemperature := by
  intro s hst
  refine ⟨s.xtempOp, rfl, ?_⟩
  rw [State.xtempOp_eq hst, ← Frame.temperature_eq]
  by_cases hc : s.f.sum = s.f.csum
  · rw [if_pos hc]
    exact ⟨rfl, fun _ hok => Frame.truncSigned_temperature hok s.f, fun hne => absurd hc hne⟩
  · rw [if_neg hc]
    exact ⟨rfl, fun heq => absurd heq hc, fun _ => rfl⟩

/-! ### O26: The tick of VALIDATE -/

/-- The one tick of VALIDATE under R8: both values, uncut, and SUCCESS, or ChecksumMismatch (R141). -/
theorem State.ownTick_validate {s : State} (hok : s.cfg.ok = true) (hst : s.st = .validate) :
    s.ownTick = if s.f.sum = s.f.csum then
        { s with hum := s.f.humidity, temp := s.f.temperature, st := .success }
      else s.raise .checksumMismatch := by
  by_cases hc : s.f.sum = s.f.csum
  · rw [if_pos hc, s.ownTick_validate_match hst (s.checksumOk_iff.mpr hc), Frame.trunc_humidity hok,
      Frame.truncSigned_temperature hok]
  · rw [if_neg hc, s.ownTick_validate_differ hst (Bool.eq_false_iff.mpr (mt s.checksumOk_iff.mp hc))]

/-- Settles O26. VALIDATE is busy, so NOP and MEASURE are both the state's own transition. -/
theorem validateTakesOneTick : Obligations.ValidateTakesOneTick :=
  fun _ hok hst => ⟨congrArg _ (State.ownTick_validate hok hst), exec_measure_busy (by rw [hst]; rfl)⟩

/-! ### O27: The ranges of the values -/

/-- Every number up to `10 × limit + 255` is the decimal composition of two bytes, the first of them at most `limit` (R78). -/
theorem exists_decimal {limit v : Nat} (hlim : limit ≤ 255) (hv : v ≤ limit * 10 + 255) :
    ∃ x y : Byte, x.toNat ≤ limit ∧ x.toNat * 10 + y.toNat = v := by
  refine ⟨.ofNatLT (min (v / 10) limit) (by omega), .ofNatLT (v - min (v / 10) limit * 10) (by omega), ?_⟩
  simp only [BitVec.toNat_ofNatLT]
  omega

theorem Frame.exists_humidity {v : Nat} (hv : v ≤ 2805) : ∃ f : Frame, f.humidity = v := by
  obtain ⟨x, y, -, hxy⟩ := exists_decimal (limit := 255) le_rfl hv
  exact ⟨⟨x, y, 0, 0, 0⟩, hxy⟩

/-- Seven bits of byte 2 hold the magnitude's integer part, and bit 7 its sign (R77). -/
theorem Frame.exists_temperature {v : Int} (hv : v.natAbs ≤ 1525) : ∃ f : Frame, f.temperature = v := by
  obtain ⟨x, y, hx, hxy⟩ := exists_decimal (limit := 127) (by decide) hv
  rcases Int.natAbs_eq v with hpos | hneg
  · have hlt : x.toNat < 128 := Nat.lt_succ_of_le hx
    refine ⟨⟨0, 0, x, y, 0⟩, ?_⟩
    rw [Frame.temperature_eq, Nat.mod_eq_of_lt hlt, hxy, if_pos hlt, one_mul, ← hpos]
  · have hbyte : (x + 128#8).toNat = x.toNat + 128 := by
      rw [BitVec.toNat_add]
      exact Nat.mod_eq_of_lt (by simp; omega)
    refine ⟨⟨0, 0, x + 128#8, y, 0⟩, ?_⟩
    rw [Frame.temperature_eq, hbyte, Nat.add_mod_right, Nat.mod_eq_of_lt (by omega), hxy, if_neg (by omega), neg_one_mul,
      ← hneg]

/-- Settles O27. The bounds are those of the bytes; a value is composed of an integer part and a byte (`exists_decimal`), and
492 is 49 × 10 + 2 and 48 × 10 + 12. -/
theorem valuesFillTheirRanges : Obligations.ValuesFillTheirRanges := by
  refine ⟨fun f => ?_, fun v => Frame.exists_humidity, fun v hlo hhi => Frame.exists_temperature (by omega), ?_,
    fun f hg hf hh ht => ⟨?_, ?_⟩⟩
  · have habs := f.temperature_natAbs
    have hmag := f.magnitude_le
    exact ⟨f.humidity_le, by omega, by omega⟩
  · exact ⟨⟨49, 2, 0, 0, 0⟩, ⟨48, 12, 0, 0, 0⟩, by decide, rfl, rfl⟩
  · rw [Frame.humidity, decimal]
    omega
  · rw [Frame.temperature_natAbs, Frame.magnitude, decimal]
    omega

/-! ### O56: The nominal trace -/

/-- THE NOMINAL TRACE of a frame, up to the low sample that ends its last bit, leads from ACK_LOW to VALIDATE with that frame
(R88, R131). -/
theorem State.receive_nominalTrace {s : State} (g : Frame) (hok : s.cfg.ok = true) (hst : s.st = .ackLow)
    (hcnt : s.cnt = 0) (hlim : 80 < s.cfg.timeoutTicks) :
    ∃ cnt lo, (s.receive (ackWave ++ frameWave g.b0 g.b1 g.b2 g.b3 g.b4 ++ [low])).registers = { s.registers with
      st := .validate, idx := 39, cnt := cnt, lo := lo, f := g } := by
  have hwf : (Instr.symAck 80 80).wellFormed s.cfg = true := by simp [Instr.wellFormed, hlim]
  have hack := Host.Outcome.next.inj (acknowledgementSymbolIsMeasured s 80 80 hok hst hcnt hwf)
  rw [List.append_assoc, State.receive_append, ackWave, hack]
  exact State.receive_frameWave g hok rfl (by simp; omega)

/-- Settles O56. The handshake leaves ACK_LOW, the trace fills the frame (`State.receive_nominalTrace`), and the checksum matches
at the tick of VALIDATE. -/
theorem nominalTraceRoundTrips : Obligations.NominalTraceRoundTrips := by
  intro s line last hs b0 b1 b2 b3 hok hq hlen hnr hlim
  let g : Frame := ⟨b0, b1, b2, b3, checksumOf b0 b1 b2 b3⟩
  have hregs := State.after_handshake line hok hq hlen hnr
  have hcfg := s.after_cfg (⟨false, true, line⟩ :: hs)
  refine ⟨_, runOn_eq s _ hok, ?_⟩
  rw [measureInputs, State.after_append, State.after_append, State.after_waveInputs]
  generalize s.after (⟨false, true, line⟩ :: hs) = u at hregs hcfg ⊢
  rw [← hcfg] at hok hlim
  obtain ⟨cnt, lo, htrace⟩ := State.receive_nominalTrace g hok (congrArg Registers.st hregs)
    (congrArg Registers.cnt hregs) hlim
  obtain ⟨hcfg', -⟩ := u.receive_frame (ackWave ++ frameWave b0 b1 b2 b3 (checksumOf b0 b1 b2 b3) ++ [low])
  rw [hregs] at htrace
  generalize u.receive _ = v at htrace hcfg' ⊢
  rw [← hcfg'] at hok
  obtain ⟨hst, -, -, -, -, hf, herr, -⟩ := Registers.mk.inj htrace
  have hsum : v.f.sum = v.f.csum := by rw [hf]; rfl
  have htick := (State.ownTick_validate (s := v.withInput ⟨false, false, last⟩) hok hst).trans (if_pos hsum)
  rw [State.after_cons, State.after_nil, State.tickEnd_of_no_command rfl rfl, htick]
  exact ⟨rfl, hf, State.measurement_success rfl herr⟩

end Sys2Proof.Machine
end

section
/-! SUPPORT. The statements of spec/44_formatting.md: what FMT.H and FMT.T render, that `dec` is the decimal numeral, and that
the decoder of TXT reads back every rendered text (R150 to R153). -/

namespace Sys2Proof.Machine

/-! ### O28, O29: FMT.H and FMT.T -/

/-- The rendering of a humidity, written out. -/
theorem renderHum_eq (v : Value) :
    renderHum v = dec (v.toNat / 10) ++ ['.'] ++ dec (v.toNat % 10) ++ ['%'] := rfl

/-- The rendering of a temperature, written out. -/
theorem renderTemp_eq (v : Value) :
    renderTemp v = (if v.toInt < 0 then ['-'] else []) ++ dec (v.toInt.natAbs / 10) ++ ['.'] ++
      dec (v.toInt.natAbs % 10) ++ ['°', 'C'] := by
  simp only [renderTemp, tenths, List.append_assoc]

/-- FMT.H writes the rendering into `text` and nothing else. -/
theorem exec_fmtH (v : Value) (s : State) : exec (.fmtH v) s = .next { s with text := renderHum v } := rfl

/-- FMT.T writes the rendering into `text` and nothing else. -/
theorem exec_fmtT (v : Value) (s : State) : exec (.fmtT v) s = .next { s with text := renderTemp v } := rfl

/-- Settles O28. -/
theorem fmtHRendersTheHumidity : Obligations.FmtHRendersTheHumidity := by
  intro s v
  rw [exec_fmtH, renderHum_eq]

/-- Settles O29. -/
theorem fmtTRendersTheTemperature : Obligations.FmtTRendersTheTemperature := by
  intro s v
  rw [exec_fmtT, renderTemp_eq]

/-! ### O30: The decimal numeral -/

/-- The model's digit character is the library's. -/
theorem digitChar_eq {d : Nat} (hd : d < 10) : digitChar d = d.digitChar := by
  interval_cases d <;> rfl

/-- The model's digits are the library's in base ten, whatever the fuel and the digits read so far. -/
theorem decInto_eq_toDigitsCore (fuel n : Nat) (acc : List Char) :
    decInto fuel n acc = Nat.toDigitsCore 10 fuel n acc := by
  induction fuel generalizing n acc with
  | zero => rfl
  | succ k ih =>
    rw [decInto, Nat.toDigitsCore]
    by_cases hn : n < 10
    · rw [if_pos hn, if_pos (Nat.div_eq_of_lt hn), Nat.mod_eq_of_lt hn, digitChar_eq hn]
    · have hdiv : n / 10 ≠ 0 := by omega
      rw [if_neg hn, if_neg hdiv, ih, digitChar_eq (Nat.mod_lt n (by decide))]

/-- `dec` is the library's list of decimal digits. -/
theorem dec_eq_toDigits (n : Nat) : dec n = Nat.toDigits 10 n := decInto_eq_toDigitsCore _ _ _

/-- A numeral has at least one digit. -/
theorem dec_ne_nil (n : Nat) : dec n ≠ [] := by
  rw [dec_eq_toDigits]
  exact Nat.toDigits_ne_nil

/-- The numeral of a number below ten is its digit. -/
theorem dec_of_lt_ten {n : Nat} (hn : n < 10) : dec n = [digitChar n] := by
  rw [dec_eq_toDigits, Nat.toDigits_of_lt_base hn, digitChar_eq hn]

/-- The numeral of a number of at least ten is that of its tens, then its last digit. -/
theorem dec_of_ten_le {n : Nat} (hn : 10 ≤ n) : dec n = dec (n / 10) ++ [digitChar (n % 10)] := by
  rw [dec_eq_toDigits, Nat.toDigits_of_base_le (by decide) hn, ← dec_eq_toDigits,
    digitChar_eq (Nat.mod_lt n (by decide))]

/-- Every character of a numeral is a digit. -/
theorem digit_of_mem_dec {n : Nat} {ch : Char} (h : ch ∈ dec n) : '0' ≤ ch ∧ ch ≤ '9' := by
  rw [dec_eq_toDigits] at h
  have hdigit := Nat.isDigit_of_mem_toDigits (by decide) (by decide) h
  simpa [Char.isDigit, Char.le_def] using hdigit

/-- The numeral of a number other than 0 does not begin with the digit 0: its first digit is that of the tens, and of one digit
itself. -/
theorem dec_head?_ne_zero {n : Nat} (hn : n ≠ 0) : (dec n).head? ≠ some '0' := by
  induction n using Nat.strong_induction_on with
  | _ n ih =>
    by_cases hlt : n < 10
    · rw [dec_of_lt_ten hlt, digitChar_eq hlt]
      simpa using hn
    · have htens := ih (n / 10) (by omega) (by omega)
      rwa [dec_of_ten_le (by omega), List.head?_append_of_ne_nil _ (dec_ne_nil _)]

/-- The number that the digits `cs` denote after `acc` has been read: R151's reading of a numeral, from any start. -/
def digitsValue (acc : Nat) (cs : List Char) : Nat := cs.foldl (fun a ch => a * 10 + (ch.toNat - 48)) acc

/-- The first digit is the number read so far. -/
theorem digitsValue_zero_cons (ch : Char) (cs : List Char) :
    digitsValue 0 (ch :: cs) = digitsValue (ch.toNat - 48) cs := by
  rw [digitsValue, List.foldl_cons, Nat.zero_mul, Nat.zero_add, digitsValue]

/-- Reading digits is the library's. -/
theorem digitsValue_eq_ofDigitChars (acc : Nat) (cs : List Char) : digitsValue acc cs = Nat.ofDigitChars 10 cs acc := by
  simp only [digitsValue, Nat.ofDigitChars_eq_foldl, Nat.mul_comm 10, Char.reduceToNat]

/-- A numeral denotes its number. -/
theorem digitsValue_dec (n : Nat) : digitsValue 0 (dec n) = n := by
  rw [digitsValue_eq_ofDigitChars, dec_eq_toDigits, Nat.ofDigitChars_ten_toDigits]

/-- Settles O30. `dec` is the library's list of digits (`dec_eq_toDigits`); that it has no leading zero is an induction over the
tens (`dec_head?_ne_zero`). -/
theorem decIsTheDecimalNumeral : Obligations.DecIsTheDecimalNumeral :=
  ⟨rfl, fun n => ⟨fun _ => digit_of_mem_dec, dec_head?_ne_zero, dec_ne_nil n, digitsValue_dec n⟩⟩

/-! ### O41: Reading a rendered text -/

/-- The value of a digit. -/
theorem digitValue_of_digit {ch : Char} (h : '0' ≤ ch ∧ ch ≤ '9') : digitValue ch = some (ch.toNat - 48) := if_pos h

/-- The value of the character of a digit. -/
theorem digitValue_digitChar {d : Nat} (hd : d < 10) : digitValue (digitChar d) = some d := by
  interval_cases d <;> rfl

/-- A digit other than 0 has a value other than 0. -/
theorem digit_value_ne_zero {ch : Char} (h : '0' ≤ ch ∧ ch ≤ '9') (h0 : ch ≠ '0') : ch.toNat - 48 ≠ 0 := by
  intro hsub
  have hle : ch.toNat ≤ 48 := by omega
  exact h0 (Char.le_antisymm hle h.1)

/-- Reading digits up to a point gives the number they denote. -/
theorem readDigits_digits {cs : List Char} (h : ∀ ch ∈ cs, '0' ≤ ch ∧ ch ≤ '9') (acc : Nat) (rest : List Char) :
    readDigits acc (cs ++ '.' :: rest) = (digitsValue acc cs, '.' :: rest) := by
  induction cs generalizing acc with
  | nil => rfl
  | cons ch cs ih =>
    obtain ⟨hch, hcs⟩ := List.forall_mem_cons.mp h
    rw [List.cons_append, readDigits, digitValue_of_digit hch]
    exact ih hcs _

/-- A numeral that begins with a digit other than 0 goes on with every digit that follows. -/
theorem readNumeral_cons {ch : Char} {d : Nat} (hch : digitValue ch = some d) (hd : d ≠ 0) (cs : List Char) :
    readNumeral (ch :: cs) = some (readDigits d cs) := by
  simp [readNumeral, hch]

/-- Reading a numeral up to a point gives its number. -/
theorem readNumeral_dec (n : Nat) (rest : List Char) : readNumeral (dec n ++ '.' :: rest) = some (n, '.' :: rest) := by
  by_cases hn : n = 0
  · subst hn
    rfl
  · have hdigits := fun ch => digit_of_mem_dec (n := n) (ch := ch)
    have hhead := dec_head?_ne_zero hn
    have hvalue := digitsValue_dec n
    obtain ⟨ch, cs, hdec⟩ := List.exists_cons_of_ne_nil (dec_ne_nil n)
    rw [hdec] at hdigits hhead hvalue ⊢
    obtain ⟨hch, hcs⟩ := List.forall_mem_cons.mp hdigits
    have hd : ch.toNat - 48 ≠ 0 := digit_value_ne_zero hch (by simpa using hhead)
    rw [List.cons_append, readNumeral_cons (digitValue_of_digit hch) hd, readDigits_digits hcs, ← digitsValue_zero_cons,
      hvalue]

/-- Reading a rendered number of tenths gives the number and leaves the unit. -/
theorem readTenths_tenths (m : Nat) (rest : List Char) : readTenths (tenths m ++ rest) = some (m, rest) := by
  have hlt : m % 10 < 10 := Nat.mod_lt m (by decide)
  have htext : tenths m ++ rest = dec (m / 10) ++ '.' :: digitChar (m % 10) :: rest := by
    simp [tenths, dec_of_lt_ten hlt]
  have hvalue : m / 10 * 10 + m % 10 = m := by omega
  simp [readTenths, htext, readNumeral_dec, digitValue_digitChar hlt, hvalue]

/-- A rendered number of tenths has no sign: it begins with a digit. -/
theorem tenths_append_ne_minus (m : Nat) (rest body : List Char) : tenths m ++ rest ≠ '-' :: body := by
  intro h
  obtain ⟨ch, cs, hdec⟩ := List.exists_cons_of_ne_nil (dec_ne_nil (m / 10))
  have hdigit : '0' ≤ ch ∧ ch ≤ '9' := digit_of_mem_dec (n := m / 10) (by simp [hdec])
  obtain rfl : ch = '-' := by simpa [tenths, hdec] using congrArg List.head? h
  exact absurd hdigit (by decide)

/-- Tenths with a percent sign decode to a humidity. -/
theorem decodeTxt_humidity {m : Nat} (hm : m ≤ 65535) :
    decodeTxt (tenths m ++ ['%']) = .ok [.fmtH (BitVec.ofNat 16 m)] := by
  unfold decodeTxt
  split
  case h_1 body h => exact absurd h (tenths_append_ne_minus m _ body)
  case h_2 => simp [readTenths_tenths, hm]

/-- Tenths in degrees without a sign decode to a temperature that is not negative. -/
theorem decodeTxt_unsigned {m : Nat} (hm : m ≤ 32767) :
    decodeTxt (tenths m ++ ['°', 'C']) = .ok [.fmtT (BitVec.ofNat 16 m)] := by
  unfold decodeTxt
  split
  case h_1 body h => exact absurd h (tenths_append_ne_minus m _ body)
  case h_2 => simp [readTenths_tenths, hm]

/-- Tenths in degrees after a minus sign decode to a negative temperature. -/
theorem decodeTxt_signed {m : Nat} (hpos : 1 ≤ m) (hm : m ≤ 32768) :
    decodeTxt ('-' :: (tenths m ++ ['°', 'C'])) = .ok [.fmtT (0 - BitVec.ofNat 16 m)] := by
  simp [decodeTxt, readTenths_tenths, hpos, hm]

/-- A value that is not negative is its magnitude. -/
theorem ofNat_natAbs_toInt {v : Value} (hv : 0 ≤ v.toInt) : BitVec.ofNat 16 v.toInt.natAbs = v := by
  rw [← BitVec.ofInt_natCast, Int.natAbs_of_nonneg hv, BitVec.ofInt_toInt]

/-- A negative value is its magnitude negated. -/
theorem zero_sub_ofNat_natAbs_toInt {v : Value} (hv : v.toInt < 0) : 0 - BitVec.ofNat 16 v.toInt.natAbs = v := by
  rw [← BitVec.ofInt_natCast, Int.ofNat_natAbs_of_nonpos hv.le, BitVec.ofInt_neg, BitVec.ofInt_toInt, zero_sub, neg_neg]

/-- The text of a humidity decodes to it. -/
theorem decodeTxt_renderHum (v : Value) : decodeTxt (renderHum v) = .ok [.fmtH v] := by
  rw [renderHum, decodeTxt_humidity (by omega), BitVec.ofNat_toNat, BitVec.setWidth_eq]

/-- The text of a temperature decodes to it, on either side of 0. -/
theorem decodeTxt_renderTemp (v : Value) : decodeTxt (renderTemp v) = .ok [.fmtT v] := by
  have hlo : -32768 ≤ v.toInt := v.le_toInt
  have hhi : v.toInt < 32768 := v.toInt_lt
  rw [renderTemp]
  by_cases hv : v.toInt < 0
  · rw [if_pos hv, List.append_assoc, List.singleton_append, decodeTxt_signed (by omega) (by omega),
      zero_sub_ofNat_natAbs_toInt hv]
  · rw [if_neg hv, List.nil_append, decodeTxt_unsigned (by omega), ofNat_natAbs_toInt (by omega)]

/-- Settles O41. A numeral read up to the point is its number (`readNumeral_dec`), the unit tells the form, and the sign the side
of 0. -/
theorem renderedTextDecodesToItsValue : Obligations.RenderedTextDecodesToItsValue := fun _ v =>
  ⟨decodeTxt_renderHum v, decodeTxt_renderTemp v⟩

end Sys2Proof.Machine
end

section
/-! SUPPORT. The statements of spec/60_exceptions.md: where a failure is raised and what that writes, how FAILED is left, that a
step is total, and the outcome rows as operations (R160 to R171, R179). -/

namespace Sys2Proof.Machine

/-! ### O46: Raising a failure -/

/-- The rows of the table that enter FAILED are the two that raise a failure: Timeout's, from a measuring state whose count is
one short, and ChecksumMismatch's, from VALIDATE (R161, R162). -/
theorem TableRow.raise_of_failed {s t : State} (h : TableRow s t) (hs : s.st ≠ .failed) (ht : t.st = .failed) :
    (t = s.raise .timeout ∧ s.st.measuring = true ∧ s.cnt + 1 = s.cfg.timeoutTicks ∧ s.sample = s.st.level) ∨
    (t = s.raise .checksumMismatch ∧ s.st = .validate ∧ s.f.sum ≠ s.f.csum) := by
  cases h with
  | timeout hm hl hlast => exact .inl ⟨rfl, hm, hlast, hl⟩
  | mismatch hst hc => exact .inr ⟨rfl, hst, hc⟩
  | endLow data => cases data <;> cases ht
  | rest | wakeCount | releaseCount | count => exact absurd ht hs
  | _ => cases ht

/-- Raising a failure, once the input is on the ports, writes `ST` and `ERR` and no other register (R167). -/
theorem State.present_raise_registers (k : Failure) (s : State) :
    (s.present.raise k).registers = { s.registers with st := .failed, err := k.err } :=
  congrArg (fun r : Registers => { r with st := .failed, err := k.err }) s.present_frame.1

/-- In FAILED the run is over and the line released (R31). -/
theorem State.ports_of_failed {s : State} (h : s.st = .failed) :
    s.done = true ∧ s.busy = false ∧ s.driveLow = false := by
  simp [State.done, State.busy, State.driveLow, h]

/-- Settles O46. Neither reset nor acceptance enters FAILED, so the step is one of the two rows that raise a failure; the values
are those that the invariants, kept by the step, allow outside SUCCESS. -/
theorem raisingAFailureWritesOnlyStAndErr : Obligations.RaisingAFailureWritesOnlyStAndErr := by
  intro s t hstep hs ht
  have hvalues : Inv s → t.temp = 0 ∧ t.hum = 0 := fun h =>
    (everyStepKeepsTheInvariants s t h hstep).values (by simp [ht])
  obtain ⟨hdone, hbusy, hdrive⟩ := State.ports_of_failed ht
  obtain ⟨-, ⟨-, rfl⟩ | ⟨-, -, -, rfl⟩ | ⟨-, -, hrow⟩⟩ := step_rows hstep
  · cases ht
  · cases ht
  · obtain ⟨rfl, hm, hlast, hl⟩ | ⟨rfl, hst, hc⟩ := hrow.raise_of_failed (by simpa using hs) ht
    · exact ⟨s.present_raise_registers _, .inl ⟨rfl, by simpa using hm, by simpa using hlast, by simpa using hl⟩,
        hdone, hbusy, hdrive, rfl, hvalues⟩
    · exact ⟨s.present_raise_registers _, .inr ⟨rfl, by simpa using hst, by simpa [Frame.sum, Frame.csum] using hc⟩,
        hdone, hbusy, hdrive, rfl, hvalues⟩

/-! ### O47: How FAILED is left -/

/-- A step from a resting state is reset, the acceptance of MEASURE, or no change of any register (R34). -/
theorem step_resting {s t : State} (h : step s = .next t) (hq : s.st.resting = true) :
    (s.present.inp.rst = true ∧ t.registers = State.reset.registers) ∨
    (s.present.inp.rst = false ∧ s.present.inp.start = true ∧
      t.registers = { State.reset.registers with st := .wake }) ∨
    (s.present.inp.rst = false ∧ s.present.inp.start = false ∧ t.registers = s.registers) := by
  obtain ⟨-, ⟨hr, rfl⟩ | ⟨hr, hs, -, rfl⟩ | ⟨hr, hown, rfl⟩⟩ := step_cases h
  · exact .inl ⟨hr, rfl⟩
  · exact .inr (.inl ⟨hr, hs, rfl⟩)
  · have hs : s.present.inp.start = false := hown.resolve_right (by simp [hq])
    have hkeep : s.present.ownTick = s.present := State.ownTick_resting _ (by simpa using hq)
    exact .inr (.inr ⟨hr, hs, by rw [hkeep, s.present_frame.1]⟩)

/-- Settles O47: FAILED is a resting state. -/
theorem failedIsLeftOnlyByMeasureOrReset : Obligations.FailedIsLeftOnlyByMeasureOrReset :=
  fun _ _ hstep hst => step_resting hstep (by rw [hst]; rfl)

/-! ### O4: A step is total -/

/-- Settles O4. Under a legal configuration a step is one tick, and no tick writes the parameters. -/
theorem stepIsTotalOrRefusesTheConfiguration : Obligations.StepIsTotalOrRefusesTheConfiguration :=
  fun s => ⟨fun hok => ⟨_, step_next s hok, by simp⟩, step_refused s⟩

/-! ### O32: The outcome rows -/

/-- The condition of Timeout, spelled out (R124). -/
theorem State.timeoutNow_iff (s : State) :
    s.timeoutNow = true ↔ s.st.measuring = true ∧ s.sample = s.st.level ∧ s.cnt + 1 = s.cfg.timeoutTicks := by
  simp [State.timeoutNow, State.sampleMatches, State.lastSample, and_assoc]

/-- OUT.TIMEOUT, where Timeout's condition holds, raises it (R161). -/
theorem State.outTimeoutOp_raises {s : State} (h : s.timeoutNow = true) : s.outTimeoutOp = s.raise .timeout := if_pos h

/-- OUT.CHECKSUM, in VALIDATE on an invalid frame, raises ChecksumMismatch (R162). -/
theorem State.outChecksumOp_raises {s : State} (hst : s.st = .validate) (hc : s.f.sum ≠ s.f.csum) :
    s.outChecksumOp = s.raise .checksumMismatch :=
  if_pos ⟨hst, Bool.eq_false_iff.mpr (mt s.checksumOk_iff.mp hc)⟩

/-- OUT.SUCCESS, in VALIDATE on a valid frame, ends the run (R141). -/
theorem State.outSuccessOp_succeeds {s : State} (hst : s.st = .validate) (hc : s.f.sum = s.f.csum) :
    s.outSuccessOp = s.succeed :=
  if_pos ⟨hst, s.checksumOk_iff.mpr hc⟩

/-- After a failure the status part of OUT is `done` over its kind's code (R79, R163). -/
theorem State.raise_outWord (k : Failure) (s : State) : (s.raise k).outWord = 1#1 ++ k.err.code := rfl

/-- After a success it is `done` over the code that stood in `ERR` (R79). -/
theorem State.succeed_outWord (s : State) : s.succeed.outWord = 1#1 ++ s.err.code := rfl

/-- Settles O32. Each row is its operation under the condition the statement names, and the pattern follows from the registers
written. -/
theorem outcomesAreReachedAsTheSpecRaisesThem : Obligations.OutcomesAreReachedAsTheSpecRaisesThem := by
  intro s
  refine ⟨rfl, fun h => ⟨?_, s.raise_outWord .timeout⟩, fun ⟨hst, hc⟩ => ⟨?_, s.raise_outWord .checksumMismatch⟩,
    fun ⟨hst, hc⟩ => ⟨?_, fun herr => ?_⟩⟩
  · exact congrArg _ (State.outTimeoutOp_raises (s.timeoutNow_iff.mpr h))
  · exact congrArg _ (State.outChecksumOp_raises hst hc)
  · exact congrArg _ (State.outSuccessOp_succeeds hst hc)
  · exact s.succeed_outWord.trans (by rw [herr]; rfl)

end Sys2Proof.Machine
end

section
/-! SUPPORT. The statements of spec/70_reset_and_hazards.md: what reset overrides, that nothing survives the acceptance of a
MEASURE, and the longest run (R190, R192, R211). -/

namespace Sys2Proof.Machine

/-! ### O2: Reset overrides everything -/

/-- With `rst` on the port a tick is reset, whatever the state and `start` (R190). -/
theorem State.tickEnd_reset {s : State} (hr : s.inp.rst = true) : s.tickEnd = s.resetRegisters :=
  if_pos hr

/-- Settles O2. The tick takes the input with `rst`, and so it is `resetRegisters`, which writes registers only. -/
theorem resetInputOverridesEverything : Obligations.ResetInputOverridesEverything := by
  intro s i rest hok hin hrst
  rw [step_next s hok, State.present_cons hin, State.tickEnd_reset hrst]
  exact ⟨_, rfl, rfl, rfl, rfl⟩

/-! ### O51: A run depends on nothing before it -/

/-- Two states with the same parameters and registers pass through the same registers on the same inputs, as long as these give
the level of the line: the number of the tick is read only for a free line (R68). -/
theorem State.after_registers_congr {s u : State} {is : List Input} (hc : s.cfg = u.cfg)
    (hr : s.registers = u.registers) (hline : ∀ i ∈ is, i.line ≠ none) :
    (s.after is).registers = (u.after is).registers := by
  induction is generalizing s u with
  | nil => exact hr
  | cons i is ih =>
    obtain ⟨hi, hline⟩ := List.forall_mem_cons.mp hline
    obtain ⟨l, hl⟩ := Option.ne_none_iff_exists'.mp hi
    have hsample : (s.withInput i).sample = (u.withInput i).sample :=
      (State.sample_some _ l hl).trans (State.sample_some _ l hl).symm
    have htick := State.tickEnd_registers_congr (s := s.withInput i) (u := u.withInput i) hc hr rfl rfl fun _ => hsample
    exact ih (by simpa using hc) htick hline

/-- Settles O51. The acceptance writes every register, so after it the two runs stand at the same registers, and
`State.after_registers_congr` follows them on. -/
theorem aRunDependsOnNothingBeforeIt : Obligations.ARunDependsOnNothingBeforeIt := by
  intro s u i is hok hc hs hu hrst hstart hline
  refine ⟨_, _, runOn_eq s _ hok, runOn_eq u _ (hc ▸ hok), ?_⟩
  rw [State.setInputs_registers, State.setInputs_registers, State.after_cons, State.after_cons,
    State.tickEnd_accept (s := s.withInput i) hrst hstart hs, State.tickEnd_accept (s := u.withInput i) hrst hstart hu]
  exact State.after_registers_congr hc.symm rfl hline

/-! ### O52: Every run ends in time -/

/-- How many measurements of a run come after the one in progress: 82 in all, two for the acknowledgement and two for each bit
(R211). -/
def State.phasesAfter (s : State) : Nat :=
  match s.st with
  | .ackLow => 81
  | .ackHigh => 80
  | .bitLow => 79 - 2 * s.idx
  | .bitHigh => 78 - 2 * s.idx
  | _ => 0

/-- The most ticks that the run in progress still lasts: the rest of the handshake, `TIMEOUT_TICKS − 1` samples for each
measurement to come, the sample that ends the last one and the tick of VALIDATE (R211). -/
def State.ticksLeft (s : State) : Nat :=
  match s.st with
  | .wake => (s.cfg.wakeTicks - s.dly) + s.cfg.releaseTicks + 82 * (s.cfg.timeoutTicks - 1) + 2
  | .release => (s.cfg.releaseTicks - s.dly) + 82 * (s.cfg.timeoutTicks - 1) + 2
  | .ackLow | .ackHigh | .bitLow | .bitHigh =>
    s.phasesAfter * (s.cfg.timeoutTicks - 1) + (s.cfg.timeoutTicks - 1 - s.cnt) + 2
  | .validate => 1
  | .idle | .success | .failed => 0

theorem State.ticksLeft_wake {s : State} (hst : s.st = .wake) : s.ticksLeft =
    (s.cfg.wakeTicks - s.dly) + s.cfg.releaseTicks + 82 * (s.cfg.timeoutTicks - 1) + 2 := by
  rw [State.ticksLeft, hst]

theorem State.ticksLeft_release {s : State} (hst : s.st = .release) : s.ticksLeft =
    (s.cfg.releaseTicks - s.dly) + 82 * (s.cfg.timeoutTicks - 1) + 2 := by
  rw [State.ticksLeft, hst]

theorem State.ticksLeft_measuring {s : State} (hm : s.st.measuring = true) : s.ticksLeft =
    s.phasesAfter * (s.cfg.timeoutTicks - 1) + (s.cfg.timeoutTicks - 1 - s.cnt) + 2 := by
  rcases (St.measuring_iff s.st).mp hm with hst | hst | hst | hst <;> rw [State.ticksLeft, hst]

theorem State.ticksLeft_validate {s : State} (hst : s.st = .validate) : s.ticksLeft = 1 := by
  rw [State.ticksLeft, hst]

theorem State.ticksLeft_resting {s : State} (hq : s.st.resting = true) : s.ticksLeft = 0 := by
  rcases (St.resting_iff s.st).mp hq with hst | hst | hst <;> rw [State.ticksLeft, hst]

/-- A run in progress lasts at least one more tick. -/
theorem State.ticksLeft_pos {s : State} (hb : s.st.resting = false) : 0 < s.ticksLeft := by
  cases hst : s.st with
  | idle | success | failed => rw [hst] at hb; cases hb
  | wake => rw [State.ticksLeft_wake hst]; omega
  | release => rw [State.ticksLeft_release hst]; omega
  | validate => rw [State.ticksLeft_validate hst]; omega
  | ackLow | ackHigh | bitLow | bitHigh => rw [State.ticksLeft_measuring (by rw [hst]; rfl)]; omega

/-- The tick that goes from one measurement to the next uses up one of the ticks left: the sample that ends the one is the first
of the other (R123). -/
theorem State.ticksLeft_nextPhase {s t : State} (hs : s.st.measuring = true) (ht : t.st.measuring = true)
    (hc : t.cfg = s.cfg) (hphases : s.phasesAfter = t.phasesAfter + 1) (hcnt : t.cnt = 1)
    (hlim : 2 ≤ s.cfg.timeoutTicks) : t.ticksLeft < s.ticksLeft := by
  rw [State.ticksLeft_measuring hs, State.ticksLeft_measuring ht, hc, hphases, hcnt, Nat.succ_mul]
  omega

/-- Every row of the transition table uses up one of the ticks left to a run in progress. -/
theorem TableRow.ticksLeft_lt {s t : State} (hrow : TableRow s t) (h : Inv s) (hb : s.st.resting = false) :
    t.ticksLeft < s.ticksLeft := by
  have hidx := h.idx
  have hcnt := h.cnt
  obtain ⟨hlim, hcntW, -, hwakeW, -, hreleaseW, hidxW, -⟩ := config_ok_bounds h.config
  cases hrow with
  | rest hq => rw [hb] at hq; cases hq
  | wakeCount hst hne =>
    have hdly := h.dlyWake hst
    rw [State.ticksLeft_wake hst, State.ticksLeft_wake (by exact hst), trunc_of_lt (by omega)]
    simp only
    omega
  | wakeEnd hst =>
    have hdly := h.dlyWake hst
    rw [State.ticksLeft_wake hst, State.ticksLeft_release rfl]
    simp only
    omega
  | releaseCount hst hne =>
    have hdly := h.dlyRelease hst
    rw [State.ticksLeft_release hst, State.ticksLeft_release (by exact hst), trunc_of_lt (by omega)]
    simp only
    omega
  | releaseEnd hst =>
    have hdly := h.dlyRelease hst
    rw [State.ticksLeft_release hst, State.ticksLeft_measuring (St.measure_measuring false low)]
    simp only [State.phasesAfter]
    omega
  | count hm hs hne =>
    rw [State.ticksLeft_measuring hm, State.ticksLeft_measuring (by exact hm), trunc_of_lt (by omega)]
    simp only [State.phasesAfter]
    omega
  | timeout => rw [State.ticksLeft_resting (s := s.raise .timeout) rfl]; exact State.ticksLeft_pos hb
  | mismatch => rw [State.ticksLeft_resting (s := s.raise .checksumMismatch) rfl]; exact State.ticksLeft_pos hb
  | success => rw [State.ticksLeft_resting rfl]; exact State.ticksLeft_pos hb
  | endLow data hst =>
    refine State.ticksLeft_nextPhase (by rw [hst, St.measure_measuring]) (St.measure_measuring _ _) rfl ?_ rfl hlim
    cases data with
    | false => simp only [State.phasesAfter, State.endLow, hst, St.measure]
    | true =>
      simp only [State.phasesAfter, State.endLow, hst, St.measure]
      omega
  | endAck hst =>
    refine State.ticksLeft_nextPhase (by rw [hst]; rfl) (St.measure_measuring true low) rfl ?_ rfl hlim
    simp only [State.phasesAfter, State.endAck, hst]
  | nextBit hst hs hne =>
    refine State.ticksLeft_nextPhase (by rw [hst]; rfl) (St.measure_measuring true low) rfl ?_ rfl hlim
    simp only [State.phasesAfter, hst]
    rw [trunc_of_lt (by omega)]
    omega
  | lastBit hst =>
    rw [State.ticksLeft_validate rfl, State.ticksLeft_measuring (by rw [hst]; rfl)]
    omega

/-- No row of the table leads a run in progress to IDLE: where it rests, the run is done (R31, R34). -/
theorem TableRow.done_of_resting {s t : State} (hrow : TableRow s t) (hb : s.st.resting = false)
    (hq : t.st.resting = true) : t.done = true := by
  cases hrow with
  | timeout | mismatch | success => rfl
  | rest | wakeCount | releaseCount | count => exact absurd hq (by simp [hb])
  | endLow data => cases data <;> cases hq
  | _ => cases hq

/-- The invariants do not speak of the ports. -/
theorem Inv.withInput {s : State} (h : Inv s) (i : Input) : Inv (s.withInput i) := { h with }

/-- A run in progress is done after at most the ticks left to it, if the host does not reset the block. -/
theorem State.done_within_ticksLeft {s : State} {is : List Input} (h : Inv s) (hb : s.st.resting = false)
    (hnr : NoReset is) (hlen : s.ticksLeft ≤ is.length) :
    ∃ n, n ≤ s.ticksLeft ∧ (s.after (is.take n)).done = true := by
  induction is generalizing s with
  | nil => exact absurd (State.ticksLeft_pos hb) (Nat.not_lt.mpr hlen)
  | cons i is ih =>
    obtain ⟨hrst, hnr⟩ := noReset_cons.mp hnr
    rw [List.length_cons] at hlen
    have hrow : TableRow (s.withInput i) (s.withInput i).tickEnd :=
      State.tickEnd_busy (s := s.withInput i) hrst hb ▸ (s.withInput i).ownTick_row
    have hinv : Inv (s.withInput i).tickEnd := (h.withInput i).row hrow
    have hlt : (s.withInput i).tickEnd.ticksLeft < s.ticksLeft := hrow.ticksLeft_lt (h.withInput i) hb
    cases hq : (s.withInput i).tickEnd.st.resting with
    | true => exact ⟨1, by omega, hrow.done_of_resting hb hq⟩
    | false =>
      obtain ⟨n, hn, hdone⟩ := ih hinv hq hnr (by omega)
      exact ⟨n + 1, by omega, hdone⟩

/-- The acceptance is the first tick of the longest run; it leaves the others (R211). -/
theorem State.accept_ticksLeft (s : State) : s.accept.ticksLeft + 1 = s.cfg.longestRun := by
  rw [State.ticksLeft_wake rfl, Config.longestRun, Config.firstSample]
  simp only [State.accept_cfg, State.accept_dly]
  omega

/-- Settles O52. The acceptance establishes the invariants; from there each tick uses up one of the ticks left, and the state
where none is left is SUCCESS or FAILED. -/
theorem everyRunEndsInTime : Obligations.EveryRunEndsInTime := by
  refine ⟨rfl, fun s i is hok hq hrst hstart hnr hlen => ?_⟩
  have haccept := State.tickEnd_accept (s := s.withInput i) hrst hstart hq
  have hleft : (s.withInput i).accept.ticksLeft + 1 = s.cfg.longestRun := (s.withInput i).accept_ticksLeft
  obtain ⟨n, hn, hdone⟩ := State.done_within_ticksLeft (s := (s.withInput i).accept) (.accept hok) rfl hnr (by omega)
  refine ⟨n, _, by omega, runOn_eq s _ hok, ?_⟩
  rw [State.after_cons, haccept]
  exact hdone

end Sys2Proof.Machine
end
